-- ==== Sys2Proof/Word.lean ====
section
/-! DEFINITION. The word types of the core: bytes, 16-bit words, and the 4-bit and 12-bit fields of an instruction
(00_scope.md R6, R8, R10). -/

namespace Sys2Proof

/-- A byte: one memory cell, one general register, one timer (R20, R50). -/
abbrev Byte := BitVec 8

/-- A 16-bit word: an instruction word, `PC`, `I`, a call-stack slot (R23, R24, R26, R80). -/
abbrev Word := BitVec 16

/-- A 4-bit field: a register number `x` or `y`, the row count `n`, a key or a glyph digit (R83). -/
abbrev Nibble := BitVec 4

/-- A 12-bit address field `nnn` (R83). -/
abbrev Addr12 := BitVec 12

end Sys2Proof
end

