-- ==== Sys2Proof/Syntax.lean ====
section
/-! DEFINITION. The instructions: one constructor per row of spec/opcode_table.json, in the table's order
(30_encoding.md R84). Field widths are those of R83, so a term cannot hold a field that does not fit. -/

namespace Sys2Proof

/-- The 32 instructions and the reserved pattern `Bnnn` (R84). -/
inductive Instr where
  | cls                                        -- 00E0
  | ret                                        -- 00EE
  | jp (nnn : Addr12)                          -- 1nnn
  | call (nnn : Addr12)                        -- 2nnn
  | seVxNn (x : Nibble) (nn : Byte)            -- 3xnn
  | sneVxNn (x : Nibble) (nn : Byte)           -- 4xnn
  | seVxVy (x y : Nibble)                      -- 5xy0
  | ldVxNn (x : Nibble) (nn : Byte)            -- 6xnn
  | addVxNn (x : Nibble) (nn : Byte)           -- 7xnn
  | ldVxVy (x y : Nibble)                      -- 8xy0
  | orVxVy (x y : Nibble)                      -- 8xy1
  | andVxVy (x y : Nibble)                     -- 8xy2
  | xorVxVy (x y : Nibble)                     -- 8xy3
  | addVxVy (x y : Nibble)                     -- 8xy4
  | subVxVy (x y : Nibble)                     -- 8xy5
  | shrVx (x y : Nibble)                       -- 8xy6, `y` present and ignored (R148)
  | shlVx (x y : Nibble)                       -- 8xyE, `y` present and ignored (R149)
  | sneVxVy (x y : Nibble)                     -- 9xy0
  | ldINnn (nnn : Addr12)                      -- Annn
  | reservedBnnn (nnn : Addr12)                -- Bnnn, an unknown opcode (R128)
  | rnd (x : Nibble) (nn : Byte)               -- Cxnn
  | drw (x y n : Nibble)                       -- Dxyn
  | skp (x : Nibble)                           -- Ex9E
  | sknp (x : Nibble)                          -- ExA1
  | ldVxDt (x : Nibble)                        -- Fx07
  | ldVxK (x : Nibble)                         -- Fx0A
  | ldDtVx (x : Nibble)                        -- Fx15
  | ldStVx (x : Nibble)                        -- Fx18
  | addIVx (x : Nibble)                        -- Fx1E
  | ldFVx (x : Nibble)                         -- Fx29
  | ldBVx (x : Nibble)                         -- Fx33
  | ldMemVx (x : Nibble)                       -- Fx55
  | ldVxMem (x : Nibble)                       -- Fx65
  deriving DecidableEq, Repr

end Sys2Proof
end

