-- ==== Sys2Proof/WellFormed.lean ====
section
/-! DEFINITION. Well-formed instructions. Every field's range is in its type (R83), so one check is left: the
reserved pattern `Bnnn` has a row in the table but is no instruction of this hardware (30_encoding.md R84, R86). -/

namespace Sys2Proof

/-- True of the 32 instructions, false of the reserved pattern, whose words are unknown opcodes (R86, R128). -/
def Instr.wellFormed : Instr → Bool
  | .reservedBnnn _ => false
  | .cls | .ret | .jp _ | .call _ | .seVxNn _ _ | .sneVxNn _ _ | .seVxVy _ _ | .ldVxNn _ _ | .addVxNn _ _
  | .ldVxVy _ _ | .orVxVy _ _ | .andVxVy _ _ | .xorVxVy _ _ | .addVxVy _ _ | .subVxVy _ _ | .shrVx _ _
  | .shlVx _ _ | .sneVxVy _ _ | .ldINnn _ | .rnd _ _ | .drw _ _ _ | .skp _ | .sknp _ | .ldVxDt _ | .ldVxK _
  | .ldDtVx _ | .ldStVx _ | .addIVx _ | .ldFVx _ | .ldBVx _ | .ldMemVx _ | .ldVxMem _ => true

end Sys2Proof
end

