-- ==== Sys2Proof/Decode.lean ====
section
/-! DEFINITION. Decoding and encoding (30_encoding.md R80 to R86, 40_step_cycle.md R103). The opcode table of R84 is a list of
rows, each a mask, a match and the instruction built from the fields. The encoder is written from the formats of R82. -/

namespace Sys2Proof

/-- `x = w[11:8]` (R10, R83). -/
def fieldX (w : Word) : Nibble := w.extractLsb' 8 4

/-- `y = w[7:4]` (R10, R83). -/
def fieldY (w : Word) : Nibble := w.extractLsb' 4 4

/-- `n = w[3:0]` (R10, R83). -/
def fieldN (w : Word) : Nibble := w.extractLsb' 0 4

/-- `nn = w[7:0]` (R10, R83). -/
def fieldNn (w : Word) : Byte := w.extractLsb' 0 8

/-- `nnn = w[11:0]` (R10, R83). -/
def fieldNnn (w : Word) : Addr12 := w.extractLsb' 0 12

/-- The instruction word of two bytes, the byte at the lower address in the high bits (R52, R80). -/
def joinBytes (hi lo : Byte) : Word := hi ++ lo

/-- The byte of a word that lies at the lower address (R52, R80). -/
def highByte (w : Word) : Byte := w.extractLsb' 8 8

/-- The byte of a word that lies at the higher address (R52, R80). -/
def lowByte (w : Word) : Byte := w.extractLsb' 0 8

/-- A row of the opcode table (R84). -/
structure OpcodeRow where
  mask : Word
  pattern : Word
  build : Word → Instr

/-- A word selects a row when `w AND mask = match` (R84). -/
def OpcodeRow.selects (r : OpcodeRow) (w : Word) : Bool := w &&& r.mask == r.pattern

/-- The rows of R84 whose pattern begins with 0 to 7. -/
def opcodeRowsLow : List OpcodeRow :=
  [ ⟨0xFFFF, 0x00E0, fun _ => .cls⟩,
    ⟨0xFFFF, 0x00EE, fun _ => .ret⟩,
    ⟨0xF000, 0x1000, fun w => .jp (fieldNnn w)⟩,
    ⟨0xF000, 0x2000, fun w => .call (fieldNnn w)⟩,
    ⟨0xF000, 0x3000, fun w => .seVxNn (fieldX w) (fieldNn w)⟩,
    ⟨0xF000, 0x4000, fun w => .sneVxNn (fieldX w) (fieldNn w)⟩,
    ⟨0xF00F, 0x5000, fun w => .seVxVy (fieldX w) (fieldY w)⟩,
    ⟨0xF000, 0x6000, fun w => .ldVxNn (fieldX w) (fieldNn w)⟩,
    ⟨0xF000, 0x7000, fun w => .addVxNn (fieldX w) (fieldNn w)⟩ ]

/-- The rows of R84 whose pattern begins with 8 or 9. -/
def opcodeRowsAlu : List OpcodeRow :=
  [ ⟨0xF00F, 0x8000, fun w => .ldVxVy (fieldX w) (fieldY w)⟩,
    ⟨0xF00F, 0x8001, fun w => .orVxVy (fieldX w) (fieldY w)⟩,
    ⟨0xF00F, 0x8002, fun w => .andVxVy (fieldX w) (fieldY w)⟩,
    ⟨0xF00F, 0x8003, fun w => .xorVxVy (fieldX w) (fieldY w)⟩,
    ⟨0xF00F, 0x8004, fun w => .addVxVy (fieldX w) (fieldY w)⟩,
    ⟨0xF00F, 0x8005, fun w => .subVxVy (fieldX w) (fieldY w)⟩,
    ⟨0xF00F, 0x8006, fun w => .shrVx (fieldX w) (fieldY w)⟩,
    ⟨0xF00F, 0x800E, fun w => .shlVx (fieldX w) (fieldY w)⟩,
    ⟨0xF00F, 0x9000, fun w => .sneVxVy (fieldX w) (fieldY w)⟩ ]

/-- The rows of R84 whose pattern begins with A to F. -/
def opcodeRowsHigh : List OpcodeRow :=
  [ ⟨0xF000, 0xA000, fun w => .ldINnn (fieldNnn w)⟩,
    ⟨0xF000, 0xB000, fun w => .reservedBnnn (fieldNnn w)⟩,
    ⟨0xF000, 0xC000, fun w => .rnd (fieldX w) (fieldNn w)⟩,
    ⟨0xF000, 0xD000, fun w => .drw (fieldX w) (fieldY w) (fieldN w)⟩,
    ⟨0xF0FF, 0xE09E, fun w => .skp (fieldX w)⟩,
    ⟨0xF0FF, 0xE0A1, fun w => .sknp (fieldX w)⟩,
    ⟨0xF0FF, 0xF007, fun w => .ldVxDt (fieldX w)⟩,
    ⟨0xF0FF, 0xF00A, fun w => .ldVxK (fieldX w)⟩,
    ⟨0xF0FF, 0xF015, fun w => .ldDtVx (fieldX w)⟩,
    ⟨0xF0FF, 0xF018, fun w => .ldStVx (fieldX w)⟩,
    ⟨0xF0FF, 0xF01E, fun w => .addIVx (fieldX w)⟩,
    ⟨0xF0FF, 0xF029, fun w => .ldFVx (fieldX w)⟩,
    ⟨0xF0FF, 0xF033, fun w => .ldBVx (fieldX w)⟩,
    ⟨0xF0FF, 0xF055, fun w => .ldMemVx (fieldX w)⟩,
    ⟨0xF0FF, 0xF065, fun w => .ldVxMem (fieldX w)⟩ ]

/-- The opcode table of R84, 33 rows in its order. -/
def opcodeTable : List OpcodeRow := opcodeRowsLow ++ opcodeRowsAlu ++ opcodeRowsHigh

/-- Why a byte sequence is no instruction. -/
inductive DecodeError where
  /-- The word selects no row of the table: the source's DecodeError, an unknown opcode (R86). -/
  | unknownOpcode (w : Word)
  /-- Fewer than two bytes were given, where every instruction has two (R80). -/
  | truncated
  deriving DecidableEq, Repr

/-- Decode a word: a total, pure function of the 16 bits (R103). The rows' order does not matter (R84). -/
def decode (w : Word) : Except DecodeError Instr :=
  match opcodeTable.find? (fun r => r.selects w) with
  | some r => .ok (r.build w)
  | none => .error (.unknownOpcode w)

/-- Decode the instruction at the head of a byte sequence and give the bytes after it (R80, R81). -/
def decodeBytes : List Byte → Except DecodeError (Instr × List Byte)
  | hi :: lo :: rest =>
    match decode (joinBytes hi lo) with
    | .ok i => .ok (i, rest)
    | .error e => .error e
  | _ => .error .truncated

/-- The word of an instruction, its nibbles put together as the formats of R82 lay them out. -/
def encode : Instr → Word
  | .cls => 0x00E0
  | .ret => 0x00EE
  | .jp nnn => 0x1#4 ++ nnn
  | .call nnn => 0x2#4 ++ nnn
  | .seVxNn x nn => 0x3#4 ++ x ++ nn
  | .sneVxNn x nn => 0x4#4 ++ x ++ nn
  | .seVxVy x y => 0x5#4 ++ x ++ y ++ 0x0#4
  | .ldVxNn x nn => 0x6#4 ++ x ++ nn
  | .addVxNn x nn => 0x7#4 ++ x ++ nn
  | .ldVxVy x y => 0x8#4 ++ x ++ y ++ 0x0#4
  | .orVxVy x y => 0x8#4 ++ x ++ y ++ 0x1#4
  | .andVxVy x y => 0x8#4 ++ x ++ y ++ 0x2#4
  | .xorVxVy x y => 0x8#4 ++ x ++ y ++ 0x3#4
  | .addVxVy x y => 0x8#4 ++ x ++ y ++ 0x4#4
  | .subVxVy x y => 0x8#4 ++ x ++ y ++ 0x5#4
  | .shrVx x y => 0x8#4 ++ x ++ y ++ 0x6#4
  | .shlVx x y => 0x8#4 ++ x ++ y ++ 0xE#4
  | .sneVxVy x y => 0x9#4 ++ x ++ y ++ 0x0#4
  | .ldINnn nnn => 0xA#4 ++ nnn
  | .reservedBnnn nnn => 0xB#4 ++ nnn
  | .rnd x nn => 0xC#4 ++ x ++ nn
  | .drw x y n => 0xD#4 ++ x ++ y ++ n
  | .skp x => 0xE#4 ++ x ++ 0x9E#8
  | .sknp x => 0xE#4 ++ x ++ 0xA1#8
  | .ldVxDt x => 0xF#4 ++ x ++ 0x07#8
  | .ldVxK x => 0xF#4 ++ x ++ 0x0A#8
  | .ldDtVx x => 0xF#4 ++ x ++ 0x15#8
  | .ldStVx x => 0xF#4 ++ x ++ 0x18#8
  | .addIVx x => 0xF#4 ++ x ++ 0x1E#8
  | .ldFVx x => 0xF#4 ++ x ++ 0x29#8
  | .ldBVx x => 0xF#4 ++ x ++ 0x33#8
  | .ldMemVx x => 0xF#4 ++ x ++ 0x55#8
  | .ldVxMem x => 0xF#4 ++ x ++ 0x65#8

/-- The bytes of a word in memory order, high byte first (R52, R80). -/
def wordBytes (w : Word) : List Byte := [highByte w, lowByte w]

/-- The bytes of an instruction in memory order (R80). -/
def encodeBytes (i : Instr) : List Byte := wordBytes (encode i)

/-- The instruction the decoder reads from the table's bits `w`: an instruction is one 16-bit word (R80), laid out high byte
first. -/
def decodeTableWord (nbits w : Nat) : Option Instr :=
  match decodeBytes (wordBytes (BitVec.ofNat 16 (w % 2 ^ nbits))) with
  | .ok (i, _) => some i
  | .error _ => none

end Sys2Proof
end

