-- ==== Sys2Proof/Config.lean ====
section
/-! DEFINITION. What is fixed for a machine (the three open parameters of 92_eei_decisions.md) and what its environment
answers during one step (the free inputs of 10_state.md R35). -/

namespace Sys2Proof

/-- The three parameters that a model carries as configuration (00_scope.md R6; 92 D1, D9). They are a field of State that
no step changes, so a statement about every state is a statement about every choice of them. Their default values are
`Sys2Proof.Machine.defaultConfig`. Log entry 3. -/
structure Config where
  /-- `FONT_BASE`, the address of glyph 0. The type is its constraint `FONT_BASE + 80 <= 0x200` (R6, R56). -/
  fontBase : Fin 433
  /-- `FONT_GLYPHS`, 16 glyphs of 5 bytes, glyph 0 first and the top row of each glyph first (R56, R57). -/
  fontGlyphs : Vector Byte 80
  /-- `TICK_PER_STEP`: does every step end with one tick (R109, R234)? -/
  tickPerStep : Bool
  deriving DecidableEq, Repr

/-- What the environment supplies for one step (R35). An instruction makes at most one query, so one answer of each kind is
all a step can use. No law relates the fields to each other or to another step's (R160, R200, R201, R234). -/
structure Inputs where
  /-- The answers of `KeyPressed(k)`, key 0 first (R200). -/
  keys : Vector Bool 16
  /-- The answer of `KeyPollAny()` (R201). -/
  poll : Option Nibble
  /-- The value of `Random8()` (R160). -/
  random : Byte
  /-- How many `tick` operations the driver issues between the step before and this one (R234). Log entry 2. -/
  ticks : Nat
  deriving DecidableEq, Repr, Inhabited

/-- DESIGN CHOICE, log entry 1. The environment's inputs to the k-th step, where State's queue gives none: a free value,
with no body, so that nothing can be proved of it and every claim holds for all keys, draws and tick schedules. -/
opaque Config.freeInputs : Nat → Inputs

end Sys2Proof
end

