-- ==== Sys2Proof/Machine/Font.lean ====
section
/-! DEFINITION. The font region: the default parameters, the glyph address table and what memory holds at reset
(20_memory.md R51, R56, R57; 10_state.md R36). -/

namespace Sys2Proof.Machine

/-- The 80 glyph bytes of R57, digit 0 first. The spec marks them as general knowledge and as the default of a parameter:
log entry 4. -/
def defaultGlyphs : Vector Byte 80 :=
  #v[0xF0, 0x90, 0x90, 0x90, 0xF0,  0x20, 0x60, 0x20, 0x20, 0x70,
     0xF0, 0x10, 0xF0, 0x80, 0xF0,  0xF0, 0x10, 0xF0, 0x10, 0xF0,
     0x90, 0x90, 0xF0, 0x10, 0x10,  0xF0, 0x80, 0xF0, 0x10, 0xF0,
     0xF0, 0x80, 0xF0, 0x90, 0xF0,  0xF0, 0x10, 0x20, 0x40, 0x40,
     0xF0, 0x90, 0xF0, 0x90, 0xF0,  0xF0, 0x90, 0xF0, 0x10, 0xF0,
     0xF0, 0x90, 0xF0, 0x90, 0x90,  0xE0, 0x90, 0xE0, 0x90, 0xE0,
     0xF0, 0x80, 0x80, 0x80, 0xF0,  0xE0, 0x90, 0x90, 0x90, 0xE0,
     0xF0, 0x80, 0xF0, 0x80, 0xF0,  0xF0, 0x80, 0xF0, 0x80, 0x80]

/-- The default parameters of R6: `FONT_BASE` 0x000, the glyphs of R57, `TICK_PER_STEP` false. Log entry 3. -/
def defaultConfig : Config where
  fontBase := 0
  fontGlyphs := defaultGlyphs
  tickPerStep := false

/-- `FONT_ADDR[g] = FONT_BASE + 5*g`, a constant table that does not follow later stores (R56). -/
def fontAddress (c : Config) (g : Nibble) : Word := BitVec.ofNat 16 (c.fontBase.val + 5 * g.toNat)

/-- What a memory byte holds after reset and until it is written: the font byte inside the font region, 0 elsewhere
(R36, R51). This is what an address that memory does not list reads as. -/
def resetByte (c : Config) (a : Nat) : Byte :=
  if c.fontBase.val ≤ a then c.fontGlyphs[a - c.fontBase.val]?.getD 0 else 0

end Sys2Proof.Machine
end

