-- ==== Sys2Proof/Machine/State.lean ====
section
/-! DEFINITION. The state of the core (10_state.md R20 to R36), its outputs (60_exceptions.md R220, R240), the reasons a step
can stop, and the state right after reset (R36, 70_reset_and_hazards.md R260). -/

namespace Sys2Proof.Machine

/-- What a memory access was made for (R54, R224). -/
inductive AccessKind where
  | fetch
  | read
  | write
  deriving DecidableEq, Repr

/-- What a register value above 15 should have named (R225). -/
inductive OperandKind where
  | key
  | font
  deriving DecidableEq, Repr

/-- The two fatal faults (R223). -/
inductive FatalCode where
  | stackOverflow
  | stackUnderflow
  deriving DecidableEq, Repr

/-- An event of an operation's output list (R220 to R226). `fatal` is the one event that R223 and R226 spell in two ways
(90_conflicts.md C10). -/
inductive Event where
  | loadError (length : Nat)
  | unknownOpcode (w pc : Word)
  | fatal (code : FatalCode) (pc : Word)
  | addressOutOfBounds (a : Nat) (kind : AccessKind)
  | operandOutOfRange (v : Byte) (what : OperandKind)
  | redraw
  | toneRequest (v : Byte)
  deriving DecidableEq, Repr

/-- What a step returns (R108). -/
inductive Status where
  | ok
  | waiting
  | halted
  deriving DecidableEq, Repr

/-- Memory: the bytes that differ from their reset contents, by strictly rising address (R32, R50). -/
abbrev Memory := List Host.Cell

/-- Everything the spec gives the machine: its state (R20 to R32), the outputs on its ports (R240), and four fields of the
model's own that carry the free inputs, the event history and the parameters. -/
structure State where
  /-- `V[0]` to `V[15]`; `V[15]` is VF (R20, R22). -/
  v : Vector Byte 16
  /-- `I`, the index register (R24). -/
  i : Word
  /-- `PC`, the address of the instruction to fetch (R23). -/
  pc : Word
  /-- `SP`, the number of return addresses on the call stack, 0 to 16 in 5 bits (R25). -/
  sp : BitVec 5
  /-- `stack[0]` to `stack[15]`, a storage of its own (R26). -/
  stack : Vector Word 16
  /-- `DT`, the delay timer (R27). -/
  dt : Byte
  /-- `ST`, the sound timer (R28). -/
  st : Byte
  /-- `FB[0]` to `FB[2047]`: bit k is cell k, and cell `x + 64*y` is column x of row y (R29; the 2048-bit port of R240). -/
  fb : BitVec 2048
  /-- `MEM[0]` to `MEM[4095]` (R32). -/
  mem : Memory
  /-- The fatal-fault latch (R31). -/
  halted : Bool
  /-- Output `draw_flag` (R30). -/
  drawFlag : Bool
  /-- Output: the status the last step returned (R108). -/
  status : Status
  /-- Output: the event list of the last `step` or `load`, oldest first (R220). -/
  events : List Event
  /-- Model's own: the events of every operation before the last, oldest first (R220; log entry 5). -/
  history : List Event
  /-- Model's own: environment answers given in advance, one per step; empty means free (R35; log entry 1). -/
  inputs : List Inputs
  /-- Model's own: the number of the next step, the index of its free inputs (log entry 1). -/
  cycle : Nat
  /-- Model's own: the parameters of R6, fixed for a run (log entry 3). -/
  config : Config
  deriving DecidableEq, Repr

/-- Reasons the machine stops. The spec's own fatal faults are not among them: they have a described entry and are next
states (R226). -/
inductive Fault where
  /-- Raised by `2nnn` and `00EE` when `SP` is 17 to 31, a value the invariant of R25 excludes and no run from reset
  reaches. Safe: the spec gives such a state no behaviour. Log entry 7. -/
  | stackPointerIllegal
  deriving DecidableEq, Repr

/-- Reasons an instruction has no meaning. -/
inductive Refusal where
  /-- Raised by a dispatch arm that has no meaning yet. Safe: nothing is said of the instruction. -/
  | notModelled (mnemonic : String)
  deriving DecidableEq, Repr

/-- The outcome of an instruction or a step. -/
abbrev Result := Host.Outcome State Fault Refusal

/-- The state after `reset` of a machine with parameters `c`: the table of R36. Memory lists nothing, so every byte reads as
its reset content. -/
def State.resetWith (c : Config) : State where
  v := Vector.replicate 16 0
  i := 0
  pc := 0x0200
  sp := 0
  stack := Vector.replicate 16 0
  dt := 0
  st := 0
  fb := 0
  mem := []
  halted := false
  drawFlag := false
  status := .ok
  events := []
  history := []
  inputs := []
  cycle := 0
  config := c

/-- The machine right after reset, with the default parameters (R36, R6, R260). -/
def State.reset : State := State.resetWith defaultConfig

end Sys2Proof.Machine
end

