-- ==== Sys2Proof/Machine/Ops.lean ====
section
/-! DEFINITION. The named operations over memory, registers, the call stack, the framebuffer, the timers and the event
channel, the entry of a fatal fault, and the parts of the step cycle (20_memory.md, 40_step_cycle.md, 60_exceptions.md). -/

namespace Sys2Proof.Machine

/-! ### Loops -/

/-- `for k = 0 to n - 1 in increasing order: f k`, the loop of R175 to R177, R191 and R266. -/
def forUp (n : Nat) (f : Nat → State → State) (s : State) : State :=
  match n with
  | 0 => s
  | n + 1 => f n (forUp n f s)

/-! ### Memory -/

/-- The byte at an address below 4096: the listed one, else the reset content (R32, R36). -/
def memoryRead (c : Config) (m : Memory) (a : Nat) : Byte :=
  match m with
  | [] => resetByte c a
  | cell :: rest => if cell.1 = a then cell.2 else memoryRead c rest a

/-- Memory with the byte at an address written, in canonical form: a byte equal to its reset content is not listed. -/
def memoryWrite (c : Config) (m : Memory) (a : Nat) (b : Byte) : Memory :=
  match m with
  | [] => if b = resetByte c a then [] else [(a, b)]
  | cell :: rest =>
    if a < cell.1 then (if b = resetByte c a then cell :: rest else (a, b) :: cell :: rest)
    else if a = cell.1 then (if b = resetByte c a then rest else (a, b) :: rest)
    else cell :: memoryWrite c rest a b

/-- The canonical form from an address on: strictly rising addresses of the 4096-byte space, no entry equal to its reset
content. -/
def Memory.wfFrom (c : Config) (low : Nat) (m : Memory) : Bool :=
  match m with
  | [] => true
  | cell :: rest =>
    decide (low ≤ cell.1) && decide (cell.1 < 4096) && decide (cell.2 ≠ resetByte c cell.1) &&
      Memory.wfFrom c (cell.1 + 1) rest

/-- The canonical form of memory: equal memories are equal lists. -/
def Memory.wf (c : Config) (m : Memory) : Bool := Memory.wfFrom c 0 m

/-- `EA(a) = a mod 4096` (R54). -/
def effectiveAddress (a : Nat) : Nat := a % 4096

/-- The memory byte at effective address `a`: `MEM[a]` with no bounds handling and no event (R9). -/
def State.peek (s : State) (a : Nat) : Byte := memoryRead s.config s.mem a

/-- `MEM[a] <- b` with no bounds handling and no event (R9). -/
def State.poke (s : State) (a : Nat) (b : Byte) : State := { s with mem := memoryWrite s.config s.mem a b }

/-! ### Events -/

/-- `Emit(e)`: append an event to the list of the running operation (R220). -/
def State.emit (s : State) (e : Event) : State := { s with events := s.events ++ [e] }

/-- Report an access above 4095 (R54, R224). -/
def State.reportBounds (s : State) (a : Nat) (kind : AccessKind) : State :=
  if 4095 < a then s.emit (.addressOutOfBounds a kind) else s

/-- The six diagnostic codes (R221 to R225); the signal events have none (R220). -/
def Event.code : Event → Option Nat
  | .loadError _ => some 1
  | .unknownOpcode _ _ => some 2
  | .fatal .stackOverflow _ => some 3
  | .fatal .stackUnderflow _ => some 4
  | .addressOutOfBounds _ _ => some 5
  | .operandOutOfRange _ _ => some 6
  | .redraw => none
  | .toneRequest _ => none

/-- Begin the event list of a new operation; the list of the one before goes to the history (R220). -/
def State.newEvents (s : State) : State := { s with history := s.history ++ s.events, events := [] }

/-! ### The access primitives -/

/-- `MemFetch(a)` and `MemRead(a, 1)`: report an address above 4095, then read at the effective address (R59, R60). -/
def State.memRead (s : State) (a : Nat) (kind : AccessKind) : Byte × State :=
  (s.peek (effectiveAddress a), s.reportBounds a kind)

/-- `MemWrite(a, 1, b)`: report an address above 4095, then write at the effective address (R61). -/
def State.memWrite (s : State) (a : Nat) (b : Byte) : State :=
  (s.reportBounds a .write).poke (effectiveAddress a) b

/-! ### Registers -/

/-- The register number of VF (R22). -/
def vf : Nibble := 0xF#4

/-- `V[x]` (R9, R20). -/
def State.reg (s : State) (x : Nibble) : Byte := s.v[x.toNat]'(x.isLt)

/-- `V[x] <- b` (R9, R20). -/
def State.setReg (s : State) (x : Nibble) (b : Byte) : State := { s with v := s.v.set x.toNat b x.isLt }

/-- `I <- a` (R24). -/
def State.setIndex (s : State) (a : Word) : State := { s with i := a }

/-- `PC <- a` (R23). -/
def State.setPc (s : State) (a : Word) : State := { s with pc := a }

/-- `PC <- next`, modulo 65536 (R10, R105). -/
def State.advance (s : State) : State := s.setPc (s.pc + 2)

/-- `PC <- skip` when the condition holds, `PC <- next` when not; the skipped word is not looked at (R10, R105). -/
def State.skipIf (s : State) (condition : Bool) : State :=
  if condition then s.setPc (s.pc + 4) else s.advance

/-- `DT <- b` (R27). -/
def State.setDelay (s : State) (b : Byte) : State := { s with dt := b }

/-- `ST <- b` (R28). -/
def State.setSound (s : State) (b : Byte) : State := { s with st := b }

/-- The output `sound_active = (ST != 0)` (R28). -/
def State.soundActive (s : State) : Bool := s.st != 0

/-! ### The call stack -/

/-- `stack[k]`, for `k` below 16 (R26). -/
def State.slot (s : State) (k : Nat) : Word := s.stack[k]?.getD 0

/-- `stack[SP] <- a; SP <- SP + 1`, for `SP` below 16 (R25, R122). -/
def State.push (s : State) (a : Word) : State :=
  { s with stack := s.stack.setIfInBounds s.sp.toNat a, sp := s.sp + 1 }

/-- `SP <- SP - 1`; the slot keeps its content (R25, R120). -/
def State.pop (s : State) : State := { s with sp := s.sp - 1 }

/-! ### The framebuffer -/

/-- `FB[k]` (R29). -/
def State.cell (s : State) (k : Nat) : Bool := s.fb.getLsbD k

/-- `FB[k] <- FB[k] XOR 1` (R191). -/
def State.toggleCell (s : State) (k : Nat) : State := { s with fb := s.fb ^^^ (1#2048 <<< k) }

/-- `for k = 0 to 2047: FB[k] <- 0` (R190). -/
def State.clearCells (s : State) : State := { s with fb := 0 }

/-- The cell of sprite row `r` and sprite column `col` of a sprite at `(x0, y0)`: both coordinates wrap (R58). -/
def cellIndex (x0 y0 r col : Nat) : Nat := (x0 + col) % 64 + (y0 + r) % 32 * 64

/-- `draw_flag <- 1; Emit(Redraw)` (R106, R190, R191). -/
def State.raiseRedraw (s : State) : State := { s with drawFlag := true }.emit .redraw

/-! ### The timers -/

/-- A timer after `n` decrements, clamped at zero (R232, R233). -/
def countdown (n : Nat) (t : Byte) : Byte := BitVec.ofNat 8 (t.toNat - n)

/-- `tick`: decrement each timer that is not zero; nothing else changes and no event is emitted (R232). -/
def State.tick (s : State) : State :=
  { s with dt := if s.dt = 0 then s.dt else s.dt - 1, st := if s.st = 0 then s.st else s.st - 1 }

/-- `n` ticks in a row, each timer computed at once. -/
def State.ticks (s : State) (n : Nat) : State := { s with dt := countdown n s.dt, st := countdown n s.st }

/-! ### The environment -/

/-- The inputs of the next step: the head of the queue, and free values where the queue is empty (R35; log entry 1). -/
def State.env (s : State) : Inputs :=
  match s.inputs with
  | [] => Config.freeInputs s.cycle
  | e :: _ => e

/-- The ticks the driver issues between the step before and this one (R234; log entry 2). -/
def State.driverTicks (s : State) : State := s.ticks s.env.ticks

/-- The inputs of this step are used up. -/
def State.nextInputs (s : State) : State := { s with inputs := s.inputs.tail, cycle := s.cycle + 1 }

/-- `KeyPressed(k)` (R200). -/
def State.keyPressed (s : State) (k : Nibble) : Bool := s.env.keys[k.toNat]'(k.isLt)

/-! ### Fatal faults -/

/-- `raise Fatal(code, PC)`, given the state of the step before any change of the instruction: the latch is set, the event
emitted, the draw flag 0 and the status `HALTED`; `PC` and everything else stay, so the fault is precise (R226). There is no
return from it beside `applyReset`. -/
def State.raiseFatal (s : State) (code : FatalCode) : State :=
  { s with halted := true, drawFlag := false, status := .halted }.emit (.fatal code s.pc)

/-! ### The step cycle -/

/-- A step of a halted core changes no state, emits no event and returns `HALTED` (R101). -/
def State.refuseStep (s : State) : State := { s.newEvents with status := .halted }

/-- The begin of a step that is not refused: a new event list, the draw flag 0, the status `OK` unless the instruction says
otherwise (R100, R106, R108). -/
def State.beginStep (s : State) : State := { s.newEvents with drawFlag := false, status := .ok }

/-- Fetch the word at `PC` and `PC + 1`, the sum an integer, in that order (R52, R59, R102). -/
def State.fetch (s : State) : Word × State :=
  let hi := s.memRead s.pc.toNat .fetch
  let lo := hi.2.memRead (s.pc.toNat + 1) .fetch
  (joinBytes hi.1 lo.1, lo.2)

/-- The end of a step: one tick when `TICK_PER_STEP` is true and the status is not `HALTED` (R100, R109). -/
def State.endStep (s : State) : State :=
  if s.config.tickPerStep = true ∧ s.status ≠ .halted then s.tick else s

/-- End a step whose instruction gave a next state. -/
def finishStep : Result → Result
  | .next t => .next t.endStep.nextInputs
  | .fault f => .fault f
  | .refused r => .refused r

/-- An unknown opcode: report it and advance `PC` by 2 (R110). -/
def State.unknownOpcode (s : State) (w : Word) : State := (s.emit (.unknownOpcode w s.pc)).advance

/-- What a step does with a word that decodes to nothing (R110). -/
def execUnknown (w : Word) (s : State) : Result := .next (s.unknownOpcode w)

/-- Store a word where the next step fetches it and let that step run: the two bytes at `PC` and `PC + 1`, and the halted
latch cleared, since a halted core fetches nothing (R101, R102). Log entry 8. -/
def State.placeWord (s : State) (w : Word) : State :=
  { ((s.poke (effectiveAddress s.pc.toNat) (highByte w)).poke (effectiveAddress (s.pc.toNat + 1)) (lowByte w)) with
    halted := false }

end Sys2Proof.Machine
end

