-- ==== Sys2Proof/Machine/Operands.lean ====
section
/-! DEFINITION. The operand forms: register, immediate and address fields are used as they are (30_encoding.md R83); here are
the memory operand through `I` (43_index_memory.md R172), and the operands that must name one of 16 things
(60_exceptions.md R225). -/

namespace Sys2Proof.Machine

/-- The address of the k-th byte of a data access, `I + k` as an unbounded integer (R54, R172). -/
def State.dataAddress (s : State) (k : Nat) : Nat := s.i.toNat + k

/-- `nnn` zero-extended to 16 bits (R83). -/
def zextAddr (nnn : Addr12) : Word := nnn.setWidth 16

/-- A byte zero-extended to 16 bits (R171). -/
def zextByte (b : Byte) : Word := b.setWidth 16

/-- A 4-bit value zero-extended to 8 bits (R209). -/
def zextNibble (k : Nibble) : Byte := k.setWidth 8

/-- The low 4 bits of a register value that names a key or a glyph digit (R225). -/
def lowNibble (b : Byte) : Nibble := b.setWidth 4

/-- Report a register value above 15 that should name a key or a glyph digit (R174, R202, R225). -/
def State.reportRange (s : State) (b : Byte) (what : OperandKind) : State :=
  if 15 < b.toNat then s.emit (.operandOutOfRange b what) else s

end Sys2Proof.Machine
end

