-- ==== Sys2Proof/Machine/ControlFlow.lean ====
section
/-! DEFINITION. Control transfer (41_control_flow.md): `00EE`, `1nnn`, `2nnn`, `3xnn`, `4xnn`, `5xy0`, `9xy0`, and the reserved
`Bnnn`. -/

namespace Sys2Proof.Machine

/-- `00EE`: pop the return address into `PC`, with no further advance; the fatal fault `StackUnderflow` when the stack is
empty (R120). -/
def execRet (s : State) : Result :=
  if s.sp.toNat = 0 then .next (s.raiseFatal .stackUnderflow)
  else if s.sp.toNat ≤ 16 then .next (s.pop.setPc (s.slot (s.sp.toNat - 1)))
  else .fault .stackPointerIllegal

/-- `1nnn`: `PC <- nnn` (R121). -/
def execJp (nnn : Addr12) (s : State) : Result := .next (s.setPc (zextAddr nnn))

/-- `2nnn`: push `PC + 2`, then `PC <- nnn`; the fatal fault `StackOverflow` when all 16 slots are in use (R122). -/
def execCall (nnn : Addr12) (s : State) : Result :=
  if s.sp.toNat = 16 then .next (s.raiseFatal .stackOverflow)
  else if s.sp.toNat < 16 then .next ((s.push (s.pc + 2)).setPc (zextAddr nnn))
  else .fault .stackPointerIllegal

/-- `3xnn`: skip the next instruction if `Vx = nn` (R123). -/
def execSeVxNn (x : Nibble) (nn : Byte) (s : State) : Result := .next (s.skipIf (s.reg x == nn))

/-- `4xnn`: skip the next instruction if `Vx != nn` (R124). -/
def execSneVxNn (x : Nibble) (nn : Byte) (s : State) : Result := .next (s.skipIf (s.reg x != nn))

/-- `5xy0`: skip the next instruction if `Vx = Vy` (R125). -/
def execSeVxVy (x y : Nibble) (s : State) : Result := .next (s.skipIf (s.reg x == s.reg y))

/-- `9xy0`: skip the next instruction if `Vx != Vy` (R126). -/
def execSneVxVy (x y : Nibble) (s : State) : Result := .next (s.skipIf (s.reg x != s.reg y))

/-- `Bnnn`: an unknown opcode like any other (R128, R110). -/
def execReservedBnnn (nnn : Addr12) (s : State) : Result := execUnknown (0xB#4 ++ nnn) s

end Sys2Proof.Machine
end

