-- ==== Sys2Proof/Machine/Display.lean ====
section
/-! DEFINITION. The display instructions (44_display.md): `00E0` and `Dxyn`. -/

namespace Sys2Proof.Machine

/-- `00E0`: all cells to 0, the redraw raised, VF untouched (R190). -/
def execCls (s : State) : Result := .next s.clearCells.raiseRedraw.advance

/-- One sprite pixel: a 1 bit toggles its cell, and sets VF when the cell was 1 (R191, R192). -/
def State.drawPixel (s : State) (x0 y0 r : Nat) (row : Byte) (col : Nat) : State :=
  if row.getLsbD (7 - col) then
    let k := cellIndex x0 y0 r col
    (if s.cell k then s.setReg vf 1 else s).toggleCell k
  else s

/-- One sprite row: read its byte, then its 8 pixels from the left (R191). -/
def State.drawRow (s : State) (a x0 y0 r : Nat) : State :=
  let row := s.memRead a .read
  forUp 8 (fun col t => t.drawPixel x0 y0 r row.1 col) row.2

/-- `Dxyn`: VF cleared once, then the rows in order, then the redraw; the coordinates are those held before VF is cleared
(R191, R107). -/
def execDrw (x y n : Nibble) (s : State) : Result :=
  .next (forUp n.toNat (fun r t => t.drawRow (s.dataAddress r) ((s.reg x).toNat % 64) ((s.reg y).toNat % 32) r)
    (s.setReg vf 0)).raiseRedraw.advance

end Sys2Proof.Machine
end

