-- ==== Sys2Proof/Machine/IndexMemory.lean ====
section
/-! DEFINITION. The index register and memory instructions (43_index_memory.md): `Annn`, `Fx1E`, `Fx29`, `Fx33`, `Fx55`,
`Fx65`. No access changes `I` (R172). -/

namespace Sys2Proof.Machine

/-- `Annn`: `I <- nnn` (R170). -/
def execLdINnn (nnn : Addr12) (s : State) : Result := .next (s.setIndex (zextAddr nnn)).advance

/-- `Fx1E`: `I <- I + Vx` modulo 65536, no flag and no bound (R171). -/
def execAddIVx (x : Nibble) (s : State) : Result := .next (s.setIndex (s.i + zextByte (s.reg x))).advance

/-- `Fx29`: `I <-` the address of the glyph of the low digit of `Vx`; a value above 15 is reported (R174). -/
def execLdFVx (x : Nibble) (s : State) : Result :=
  .next ((s.reportRange (s.reg x) .font).setIndex (fontAddress s.config (lowNibble (s.reg x)))).advance

/-- The k-th decimal digit of a byte: hundreds, tens, units (R175). -/
def bcdDigit (b : Byte) (k : Nat) : Byte :=
  match k with
  | 0 => BitVec.ofNat 8 (b.toNat / 100)
  | 1 => BitVec.ofNat 8 (b.toNat / 10 % 10)
  | _ => BitVec.ofNat 8 (b.toNat % 10)

/-- `Fx33`: store the hundreds, tens and units of `Vx` at `I`, `I + 1`, `I + 2` (R175). -/
def execLdBVx (x : Nibble) (s : State) : Result :=
  .next (forUp 3 (fun k t => t.memWrite (s.dataAddress k) (bcdDigit (s.reg x) k)) s).advance

/-- `Fx55`: store `V[0]` to `V[x]` at `I` to `I + x` (R176). -/
def execLdMemVx (x : Nibble) (s : State) : Result :=
  .next (forUp (x.toNat + 1) (fun k t => t.memWrite (s.dataAddress k) (s.reg (BitVec.ofNat 4 k))) s).advance

/-- `V[k] <- MemRead(I + k, 1)` (R177). -/
def State.loadReg (s : State) (a k : Nat) : State :=
  let r := s.memRead a .read
  r.2.setReg (BitVec.ofNat 4 k) r.1

/-- `Fx65`: load `V[0]` to `V[x]` from `I` to `I + x` (R177). -/
def execLdVxMem (x : Nibble) (s : State) : Result :=
  .next (forUp (x.toNat + 1) (fun k t => t.loadReg (s.dataAddress k) k) s).advance

end Sys2Proof.Machine
end

