-- ==== Sys2Proof/Machine/KeypadTimers.lean ====
section
/-! DEFINITION. The keypad, timer and sound instructions (45_keypad_timers.md): `Ex9E`, `ExA1`, `Fx07`, `Fx0A`, `Fx15`,
`Fx18`. -/

namespace Sys2Proof.Machine

/-- `Ex9E`: skip the next instruction if the key named by `Vx` is pressed; a value above 15 is reported (R202). -/
def execSkp (x : Nibble) (s : State) : Result :=
  .next ((s.reportRange (s.reg x) .key).skipIf (s.keyPressed (lowNibble (s.reg x))))

/-- `ExA1`: skip the next instruction if the key named by `Vx` is not pressed; a value above 15 is reported (R203). -/
def execSknp (x : Nibble) (s : State) : Result :=
  .next ((s.reportRange (s.reg x) .key).skipIf (!s.keyPressed (lowNibble (s.reg x))))

/-- `Fx07`: `Vx <- DT` (R204). -/
def execLdVxDt (x : Nibble) (s : State) : Result := .next (s.setReg x s.dt).advance

/-- `Fx0A`: with a key reported, `Vx <-` its number and on; with none, the status `WAITING` and nothing else, so that the
next step fetches the same instruction again (R209). -/
def execLdVxK (x : Nibble) (s : State) : Result :=
  .next (match s.env.poll with
    | none => { s with status := .waiting }
    | some k => { (s.setReg x (zextNibble k)).advance with status := .ok })

/-- `Fx15`: `DT <- Vx` (R205). -/
def execLdDtVx (x : Nibble) (s : State) : Result := .next (s.setDelay (s.reg x)).advance

/-- `Fx18`: `ST <- Vx` and a tone request, also for 0 (R206). -/
def execLdStVx (x : Nibble) (s : State) : Result :=
  .next ((s.setSound (s.reg x)).emit (.toneRequest (s.reg x))).advance

end Sys2Proof.Machine
end

