-- ==== Sys2Proof/Machine/Flags.lean ====
section
/-! DEFINITION. The flags: VF takes the value 0 or 1 in all 8 bits (10_state.md R22, 42_register_alu.md R161). The collision
flag of `Dxyn` is set pixel by pixel in Machine/Display.lean. -/

namespace Sys2Proof.Machine

/-- A flag as the byte that is written to VF (R22). -/
def flagByte (condition : Bool) : Byte := if condition then 1 else 0

/-- The carry of an addition: the unreduced sum exceeds 255 (R146, R161). -/
def carryFlag (p q : Byte) : Byte := flagByte (decide (255 < p.toNat + q.toNat))

/-- The not-borrow of a subtraction: 1 exactly when `p >= q` (R147, R161). -/
def notBorrowFlag (p q : Byte) : Byte := flagByte (decide (q.toNat ≤ p.toNat))

/-- The bit a right shift by one moves out, bit 0 (R148). -/
def lowBitFlag (p : Byte) : Byte := flagByte (p.getLsbD 0)

/-- The bit a left shift by one moves out, bit 7 (R149). -/
def highBitFlag (p : Byte) : Byte := flagByte (p.getLsbD 7)

end Sys2Proof.Machine
end

