-- ==== Sys2Proof/Machine/RegisterAlu.lean ====
section
/-! DEFINITION. Register loads, the ALU and the random draw (42_register_alu.md). Operands are latched before any write and
the writes are made in the order of the source's table, so that a later write to the same register is what stays (R107). -/

namespace Sys2Proof.Machine

/-- `6xnn`: `Vx <- nn` (R140). -/
def execLdVxNn (x : Nibble) (nn : Byte) (s : State) : Result := .next (s.setReg x nn).advance

/-- `7xnn`: `Vx <- Vx + nn` modulo 256, no flag (R141). -/
def execAddVxNn (x : Nibble) (nn : Byte) (s : State) : Result := .next (s.setReg x (s.reg x + nn)).advance

/-- `8xy0`: `Vx <- Vy` (R142). -/
def execLdVxVy (x y : Nibble) (s : State) : Result := .next (s.setReg x (s.reg y)).advance

/-- `8xy1`: `Vx <- Vx OR Vy`, no flag (R143). -/
def execOrVxVy (x y : Nibble) (s : State) : Result := .next (s.setReg x (s.reg x ||| s.reg y)).advance

/-- `8xy2`: `Vx <- Vx AND Vy`, no flag (R144). -/
def execAndVxVy (x y : Nibble) (s : State) : Result := .next (s.setReg x (s.reg x &&& s.reg y)).advance

/-- `8xy3`: `Vx <- Vx XOR Vy`, no flag (R145). -/
def execXorVxVy (x y : Nibble) (s : State) : Result := .next (s.setReg x (s.reg x ^^^ s.reg y)).advance

/-- `8xy4`: the sum modulo 256 first, the carry second: with `x = F` the carry stays (R146). -/
def execAddVxVy (x y : Nibble) (s : State) : Result :=
  .next ((s.setReg x (s.reg x + s.reg y)).setReg vf (carryFlag (s.reg x) (s.reg y))).advance

/-- `8xy5`: the not-borrow first, the difference modulo 256 second: with `x = F` the difference stays (R147). -/
def execSubVxVy (x y : Nibble) (s : State) : Result :=
  .next ((s.setReg vf (notBorrowFlag (s.reg x) (s.reg y))).setReg x (s.reg x - s.reg y)).advance

/-- `8xy6`: bit 0 to VF first, the logical shift right by one second; `y` is ignored (R148). -/
def execShrVx (x : Nibble) (s : State) : Result :=
  .next ((s.setReg vf (lowBitFlag (s.reg x))).setReg x (s.reg x >>> 1)).advance

/-- `8xyE`: bit 7 to VF first, the shift left by one second; `y` is ignored (R149). -/
def execShlVx (x : Nibble) (s : State) : Result :=
  .next ((s.setReg vf (highBitFlag (s.reg x))).setReg x (s.reg x <<< 1)).advance

/-- `Cxnn`: `Vx <- Random8() AND nn` (R150, R160). -/
def execRnd (x : Nibble) (nn : Byte) (s : State) : Result := .next (s.setReg x (s.env.random &&& nn)).advance

end Sys2Proof.Machine
end

