-- ==== Sys2Proof/Machine/Step.lean ====
section
/-! DEFINITION. One step of the machine (40_step_cycle.md R100), with the ticks the driver issues before it (60_exceptions.md
R234). -/

namespace Sys2Proof.Machine

/-- One step: the driver's ticks, then the `step` operation of R100. -/
def step (s : State) : Host.Outcome State Fault Refusal :=
  let u := s.driverTicks
  if u.halted then .next u.refuseStep.nextInputs
  else
    let f := u.beginStep.fetch
    finishStep
      (match decode f.1 with
      | .ok i => exec i f.2
      | .error _ => execUnknown f.1 f.2)

/-- The state with an instruction word where the next step fetches it. The loader of the spec puts programs into memory from
outside (R266); this stands for it. -/
def State.withFetchWord (s : State) (nbits w : Nat) : State := s.placeWord (BitVec.ofNat 16 (w % 2 ^ nbits))

end Sys2Proof.Machine
end

