-- ==== Sys2Proof/Machine/HostOps.lean ====
section
/-! DEFINITION. The driver's operations `reset` and `load` (70_reset_and_hazards.md R260, R266); `tick` is `State.tick`. -/

namespace Sys2Proof.Machine

/-- `reset`: every state element and output takes its value of R36, under the machine's own parameters. It emits no event.
The model's own history, input queue and step number go on. -/
def applyReset (s : State) : State :=
  { State.resetWith s.config with history := s.history ++ s.events, inputs := s.inputs, cycle := s.cycle }

/-- What `load` returns (R266). -/
inductive LoadResult where
  | ok
  | error
  deriving DecidableEq, Repr

/-- `MAX_IMAGE`, 4096 - 512 (R6). -/
def maxImage : Nat := 3584

/-- `PROG_BASE` (R6). -/
def progBase : Nat := 0x200

/-- `load(bytes)`: an image that is too long is refused with its event and no write; any other is copied byte by byte from
0x200 upward. No register, `PC` or `halted` changes (R221, R266). -/
def applyLoad (bytes : List Byte) (s : State) : LoadResult × State :=
  if maxImage < bytes.length then (.error, s.newEvents.emit (.loadError bytes.length))
  else (.ok, forUp bytes.length (fun k t => t.poke (progBase + k) (bytes[k]?.getD 0)) s.newEvents)

end Sys2Proof.Machine
end

