-- ==== Sys2Proof/Safety.lean ====
section
/-! DEFINITION. What claims speak of: the invariant of the machine, clean runs (60_exceptions.md R220), the end conditions of
a run (70_reset_and_hazards.md R268), and the words in which an instruction's frame is said. -/

namespace Sys2Proof.Machine

/-- The invariant: memory in its canonical form (Memory.wf), `0 <= SP <= 16` (R25), and no draw flag on a halted core (a
fatal step ends with `draw_flag = 0` and later steps leave it, R106, R101). -/
def State.Inv (s : State) : Prop :=
  Memory.wf s.config s.mem = true ∧ s.sp.toNat ≤ 16 ∧ (s.halted = true → s.drawFlag = false)

/-- A diagnostic event or a fatal fault, as against the signal events `Redraw` and `ToneRequest` (R220). -/
def Event.isDiagnostic (e : Event) : Bool := e.code.isSome

/-- No diagnostic event so far and not halted: the premise R220 names for claims about programs. -/
def State.Clean (s : State) : Prop :=
  s.halted = false ∧ ∀ e ∈ s.history ++ s.events, e.isDiagnostic = false

/-- The word at `PC`, as a fetch reads it (R102). -/
def State.wordAtPc (s : State) : Word :=
  joinBytes (s.peek (effectiveAddress s.pc.toNat)) (s.peek (effectiveAddress (s.pc.toNat + 1)))

/-- The idle loop, the successful end of a run: the word at `PC` is `1nnn` with `nnn = PC` (R268 (a)). -/
def State.Idle (s : State) : Prop :=
  s.halted = false ∧ ∃ nnn : Addr12, s.wordAtPc = encode (.jp nnn) ∧ s.pc = zextAddr nnn

/-- The obligations of software that R272 lists, for the instruction about to run: what a program keeps to so that no
diagnostic event and no fatal fault comes of it. -/
def State.MeetsObligations (s : State) : Instr → Prop
  | .call _ => s.sp.toNat < 16
  | .ret => 0 < s.sp.toNat
  | .drw _ _ n => s.i.toNat + n.toNat ≤ 4096
  | .ldBVx _ => s.i.toNat + 3 ≤ 4096
  | .ldMemVx x | .ldVxMem x => s.i.toNat + (x.toNat + 1) ≤ 4096
  | .skp x | .sknp x | .ldFVx x => (s.reg x).toNat ≤ 15
  | .reservedBnnn _ => False
  | .cls | .jp _ | .seVxNn _ _ | .sneVxNn _ _ | .seVxVy _ _ | .ldVxNn _ _ | .addVxNn _ _ | .ldVxVy _ _
  | .orVxVy _ _ | .andVxVy _ _ | .xorVxVy _ _ | .addVxVy _ _ | .subVxVy _ _ | .shrVx _ _ | .shlVx _ _
  | .sneVxVy _ _ | .ldINnn _ | .rnd _ _ | .ldVxDt _ | .ldVxK _ | .ldDtVx _ | .ldStVx _ | .addIVx _ => True

/-- Every general register outside `written` is as before. -/
def KeepsRegs (written : Nibble → Prop) (s t : State) : Prop := ∀ r, ¬ written r → t.reg r = s.reg r

/-- Every byte of memory outside `stored` reads as before. -/
def KeepsMemory (stored : Nat → Prop) (s t : State) : Prop := ∀ a, ¬ stored a → t.peek a = s.peek a

/-- `a` is the effective address of one of the `n` bytes from `I` up (R172). -/
def State.StoresAt (s : State) (n a : Nat) : Prop := ∃ k, k < n ∧ a = effectiveAddress (s.dataAddress k)

/-- The events of accesses at the given addresses, in their order: one for each above 4095 (R54, R224). -/
def boundsEvents (kind : AccessKind) (addresses : List Nat) : List Event :=
  (addresses.filter (fun a => decide (4095 < a))).map (fun a => .addressOutOfBounds a kind)

/-- The addresses of the `n` bytes from `I` up, before they are reduced (R172). -/
def State.dataAddresses (s : State) (n : Nat) : List Nat := (List.range n).map s.dataAddress

/-- The event of a register value that should name one of 16 things (R225). -/
def rangeEvents (b : Byte) (what : OperandKind) : List Event :=
  if 15 < b.toNat then [.operandOutOfRange b what] else []

/-- Does the sprite of `n` rows at `I`, drawn at the coordinates in `Vx` and `Vy`, have a 1 bit on the cell of column `px`
and row `py` (R58, R191, R192)? The sprite's column and row are the cell's, counted from the start and wrapping. -/
def State.spriteCovers (s : State) (x y n : Nibble) (px py : Nat) : Bool :=
  let col := (px + 64 - (s.reg x).toNat % 64) % 64
  let r := (py + 32 - (s.reg y).toNat % 32) % 32
  decide (col < 8) && decide (r < n.toNat) && (s.peek (effectiveAddress (s.dataAddress r))).getLsbD (7 - col)

end Sys2Proof.Machine
end

