-- ==== Sys2Proof/Certificates/Slice0/Obligations.lean ====
section
/-! DEFINITION. The statements for the provers, each from the rules of spec/ its docstring cites. First the words they are
written in, then the statements: encoding, the step, whole-machine rules, the driver's operations, the instructions. -/

namespace Sys2Proof.Machine

/-! ### The words of the statements -/

/-- Every word with the pattern's fixed bits decodes to the instruction built from its fields (R84, R85). -/
def WordsDecodeTo (mask pattern : Word) (build : Word → Instr) : Prop :=
  ∀ w : Word, w &&& mask = pattern → decode w = .ok (build w)

/-- `PC` moves on by `n`, modulo 65536 (R10, R23). -/
def PcMovesBy (n : Nat) (s t : State) : Prop := t.pc.toNat = (s.pc.toNat + n) % 65536

/-- Nothing but `PC` and the named registers changes; no byte of memory does. -/
def OnlyRegsAndPc (written : Nibble → Prop) (s t : State) : Prop :=
  KeepsRegs written s t ∧ KeepsMemory (fun _ => False) s t ∧ t = { s with v := t.v, pc := t.pc }

/-- Nothing but `PC` changes; no byte of memory does. -/
def OnlyPc (s t : State) : Prop := KeepsMemory (fun _ => False) s t ∧ t = { s with pc := t.pc }

/-- A fatal fault was taken: the latch, the event, the draw flag and the status, and nothing else (R226). -/
def FatalTaken (code : FatalCode) (s t : State) : Prop :=
  t = { s with halted := true, drawFlag := false, status := .halted, events := s.events ++ [.fatal code s.pc] }

/-- `n` ticks: both timers go down by `n` with a floor of zero (R232, R233). -/
def TimersDown (n : Nat) (s t : State) : Prop :=
  t.dt.toNat = s.dt.toNat - n ∧ t.st.toNat = s.st.toNat - n

/-- The state in which a step runs its instruction: the driver's ticks done, a new event list that holds the events of the
fetch, the draw flag 0, the status `OK` (R100, R102, R106, R234). -/
def State.readyToRun (s : State) : State :=
  { s with
    dt := countdown s.env.ticks s.dt
    st := countdown s.env.ticks s.st
    history := s.history ++ s.events
    events := boundsEvents .fetch [s.pc.toNat, s.pc.toNat + 1]
    drawFlag := false
    status := .ok }

/-- The word at `PC` is an unknown opcode: it decodes to no instruction (R86). -/
def State.AtUnknownWord (s : State) : Prop := ∀ i, decode s.wordAtPc = .ok i → i.wellFormed = false

/-- The state elements and outputs of the table of R36, under the parameters `c`. -/
def IsResetState (c : Config) (t : State) : Prop :=
  (∀ r, t.reg r = 0) ∧ t.pc = 0x0200 ∧ t.i = 0 ∧ t.sp = 0 ∧ (∀ k, k < 16 → t.slot k = 0) ∧ t.dt = 0 ∧ t.st = 0 ∧
    t.soundActive = false ∧ (∀ k, k < 2048 → t.cell k = false) ∧
    (∀ g r, (h : g < 16 ∧ r < 5) → t.peek (c.fontBase.val + 5 * g + r) = c.fontGlyphs[5 * g + r]) ∧
    (∀ a, a < 4096 → (a < c.fontBase.val ∨ c.fontBase.val + 80 ≤ a) → t.peek a = 0) ∧
    t.halted = false ∧ t.drawFlag = false ∧ t.events = []

/-- The dispatch tree of R104: the nibble `a`, then the whole word, `d` or the low byte; none where R104 says unknown. -/
def dispatchTree (w : Word) : Option Instr :=
  let low := (fieldNn w).toNat
  let d := (fieldN w).toNat
  match (w.extractLsb' 12 4).toNat with
  | 0x0 => if w = 0x00E0 then some .cls else if w = 0x00EE then some .ret else none
  | 0x1 => some (.jp (fieldNnn w))
  | 0x2 => some (.call (fieldNnn w))
  | 0x3 => some (.seVxNn (fieldX w) (fieldNn w))
  | 0x4 => some (.sneVxNn (fieldX w) (fieldNn w))
  | 0x5 => if d = 0 then some (.seVxVy (fieldX w) (fieldY w)) else none
  | 0x6 => some (.ldVxNn (fieldX w) (fieldNn w))
  | 0x7 => some (.addVxNn (fieldX w) (fieldNn w))
  | 0x8 =>
    match d with
    | 0x0 => some (.ldVxVy (fieldX w) (fieldY w))
    | 0x1 => some (.orVxVy (fieldX w) (fieldY w))
    | 0x2 => some (.andVxVy (fieldX w) (fieldY w))
    | 0x3 => some (.xorVxVy (fieldX w) (fieldY w))
    | 0x4 => some (.addVxVy (fieldX w) (fieldY w))
    | 0x5 => some (.subVxVy (fieldX w) (fieldY w))
    | 0x6 => some (.shrVx (fieldX w) (fieldY w))
    | 0xE => some (.shlVx (fieldX w) (fieldY w))
    | _ => none
  | 0x9 => if d = 0 then some (.sneVxVy (fieldX w) (fieldY w)) else none
  | 0xA => some (.ldINnn (fieldNnn w))
  | 0xC => some (.rnd (fieldX w) (fieldNn w))
  | 0xD => some (.drw (fieldX w) (fieldY w) (fieldN w))
  | 0xE => if low = 0x9E then some (.skp (fieldX w)) else if low = 0xA1 then some (.sknp (fieldX w)) else none
  | 0xF =>
    match low with
    | 0x07 => some (.ldVxDt (fieldX w))
    | 0x0A => some (.ldVxK (fieldX w))
    | 0x15 => some (.ldDtVx (fieldX w))
    | 0x18 => some (.ldStVx (fieldX w))
    | 0x1E => some (.addIVx (fieldX w))
    | 0x29 => some (.ldFVx (fieldX w))
    | 0x33 => some (.ldBVx (fieldX w))
    | 0x55 => some (.ldMemVx (fieldX w))
    | 0x65 => some (.ldVxMem (fieldX w))
    | _ => none
  | _ => none

end Sys2Proof.Machine

open Sys2Proof Sys2Proof.Machine

/-! ### Encoding -/

/-- R80, R82 to R85: the word of every instruction decodes to it, every field at every value, and so do its two bytes, high
byte first, at the head of any byte sequence. -/
def Obligations.DecodeOfEncodeGivesInstruction : Prop :=
  ∀ (i : Instr) (rest : List Byte),
    decode (encode i) = .ok i ∧ decodeBytes (encodeBytes i ++ rest) = .ok (i, rest)

/-- R84, R85: a word that decodes is the word of what it decodes to; no bit of it is dropped, the ignored `y` of the shifts
included. -/
def Obligations.EncodeOfDecodeGivesWord : Prop :=
  ∀ (w : Word) (i : Instr), decode w = .ok i → encode i = w

/-- R104: a word decodes to an instruction exactly as the dispatch tree says. -/
def Obligations.DecodeFollowsDispatchTree : Prop :=
  ∀ (w : Word) (i : Instr), i.wellFormed = true → (decode w = .ok i ↔ dispatchTree w = some i)

/-- R86: the unknown words are those of its seven rows (without the counts). -/
def Obligations.UnknownWordsAreThoseListed : Prop :=
  ∀ w : Word,
    (∀ i, decode w = .ok i → i.wellFormed = false) ↔
      (let a := (w.extractLsb' 12 4).toNat
      let d := (fieldN w).toNat
      let low := (fieldNn w).toNat
      (a = 0x0 ∧ w ≠ 0x00E0 ∧ w ≠ 0x00EE) ∨ (a = 0x5 ∧ d ≠ 0) ∨
        (a = 0x8 ∧ d ∈ [0x7, 0x8, 0x9, 0xA, 0xB, 0xC, 0xD, 0xF]) ∨ (a = 0x9 ∧ d ≠ 0) ∨ a = 0xB ∨
        (a = 0xE ∧ low ≠ 0x9E ∧ low ≠ 0xA1) ∨
        (a = 0xF ∧ low ∉ [0x07, 0x0A, 0x15, 0x18, 0x1E, 0x29, 0x33, 0x55, 0x65]))

/-- R84: one word of each family, written out from the table bit by bit, decodes to its instruction. -/
def Obligations.SampleWordsDecode : Prop :=
  decode 0b0000000011100000 = .ok .cls ∧ decode 0b0010101010111100 = .ok (.call 0xABC) ∧
    decode 0b1000000100100101 = .ok (.subVxVy 1 2) ∧ decode 0b1111001101010101 = .ok (.ldMemVx 3) ∧
    decode 0b1101000100100101 = .ok (.drw 1 2 5) ∧ decode 0b1110010110011110 = .ok (.skp 5)

/-! ### The step -/

/-- R100: a step of a core that is not halted, on a word that decodes to an instruction, is that instruction in the state
`readyToRun`, then the end-of-step tick where it is due, then the next inputs; a fault is the step's fault. That the driver's
ticks and the inputs belong to a step is the model's choice (log entries 1 and 2). -/
def Obligations.StepRunsDecodedInstruction : Prop :=
  ∀ (s : State) (i : Instr), s.halted = false → decode s.wordAtPc = .ok i →
    (∀ u, exec i s.readyToRun = .next u → step s = .next u.endStep.nextInputs) ∧
    (∀ f, exec i s.readyToRun = .fault f → step s = .fault f)

/-- R110: a step on an unknown word (R86) reports it after the fetch's events, advances `PC` by 2 and answers `OK`; nothing else
of the machine changes but the timers, by the driver's ticks, which the model counts with the step after them (log entry 2), and the
tick of R109. The spec's decision D2. -/
def Obligations.StepReportsUnknownWord : Prop :=
  ∀ s : State, s.halted = false → s.AtUnknownWord →
    ∃ t, step s = .next t ∧ PcMovesBy 2 s t ∧ t.status = .ok ∧ t.drawFlag = false ∧
      t.events = boundsEvents .fetch [s.pc.toNat, s.pc.toNat + 1] ++ [.unknownOpcode s.wordAtPc s.pc] ∧
      TimersDown (s.env.ticks + if s.config.tickPerStep then 1 else 0) s t ∧
      KeepsRegs (fun _ => False) s t ∧ KeepsMemory (fun _ => False) s t ∧
      t = { s with
            pc := t.pc, dt := t.dt, st := t.st, drawFlag := t.drawFlag, status := t.status, events := t.events
            history := s.history ++ s.events, inputs := s.inputs.tail, cycle := s.cycle + 1 }

/-- R101: a step of a halted core changes no state, emits no event, leaves the draw flag, does not tick of its own, and answers
`HALTED`. The timers go down by the ticks the driver issued before it (R235). The spec's decisions D3 and D21; log entry 2. -/
def Obligations.HaltedStepChangesNothing : Prop :=
  ∀ s : State, s.halted = true →
    ∃ t, step s = .next t ∧ TimersDown s.env.ticks s t ∧
      t = { s with
            dt := t.dt, st := t.st, status := .halted, events := [], history := s.history ++ s.events
            inputs := s.inputs.tail, cycle := s.cycle + 1 }

/-- R102: the three cases of the fetch, the word big-endian, and no change but the events. -/
def Obligations.FetchReadsTwoBytes : Prop :=
  ∀ s : State,
    (s.pc.toNat ≤ 0xFFE →
      s.fetch.1.toNat = (s.peek s.pc.toNat).toNat * 256 + (s.peek (s.pc.toNat + 1)).toNat ∧
        s.fetch.2.events = s.events) ∧
    (s.pc.toNat = 0xFFF →
      s.fetch.1.toNat = (s.peek 0xFFF).toNat * 256 + (s.peek 0x000).toNat ∧
        s.fetch.2.events = s.events ++ [.addressOutOfBounds 0x1000 .fetch]) ∧
    (0x1000 ≤ s.pc.toNat →
      s.fetch.1.toNat =
          (s.peek (s.pc.toNat % 4096)).toNat * 256 + (s.peek ((s.pc.toNat + 1) % 4096)).toNat ∧
        s.fetch.2.events = s.events ++
          [.addressOutOfBounds s.pc.toNat .fetch, .addressOutOfBounds (s.pc.toNat + 1) .fetch]) ∧
    s.fetch.2 = { s with events := s.fetch.2.events }

/-- R109: after an instruction that gave `u`, the timers are those of `u`, one lower (floor zero) exactly when `TICK_PER_STEP`
is true and the status is not `HALTED`; nothing else is touched at the end of a step. The spec's decision D1. -/
def Obligations.EndOfStepTick : Prop :=
  ∀ (s : State) (i : Instr) (u : State), s.halted = false → decode s.wordAtPc = .ok i →
    exec i s.readyToRun = .next u →
    ∃ t, step s = .next t ∧
      TimersDown (if s.config.tickPerStep = true ∧ u.status ≠ .halted then 1 else 0) u t ∧
      t = { u with dt := t.dt, st := t.st, inputs := s.inputs.tail, cycle := s.cycle + 1 }

/-- R234, R232: the state a step's instruction runs in comes from that many ticks, one after the other, then the begin of the
step and the fetch; a halted core ticks as well before its step is refused (R235). Log entry 2. -/
def Obligations.DriverTicksComeBeforeStep : Prop :=
  ∀ s : State,
    s.readyToRun = (State.tick^[s.env.ticks] s).beginStep.fetch.2 ∧
    (s.halted = true → step s = .next (State.tick^[s.env.ticks] s).refuseStep.nextInputs)

/-- R111: the event list of a step holds the fetch's events first; what follows is no fetch event and no load error. The list
of the step before goes to the history (log entry 5). -/
def Obligations.FetchEventsComeFirst : Prop :=
  ∀ s t : State, s.halted = false → step s = .next t →
    t.history = s.history ++ s.events ∧
    ∃ rest, t.events = boundsEvents .fetch [s.pc.toNat, s.pc.toNat + 1] ++ rest ∧
      ∀ e ∈ rest, (∀ a, e ≠ .addressOutOfBounds a .fetch) ∧ (∀ n, e ≠ .loadError n)

/-- R66: a store is seen by the next fetch: the byte stored where the high or the low byte of the next word lies is that byte
of the fetched word. The spec derives it. -/
def Obligations.StoreIsSeenByNextFetch : Prop :=
  ∀ (s : State) (a : Nat) (b : Byte), Memory.wf s.config s.mem = true →
    (a % 4096 = s.pc.toNat % 4096 → highByte (s.memWrite a b).fetch.1 = b) ∧
    (a % 4096 = (s.pc.toNat + 1) % 4096 → lowByte (s.memWrite a b).fetch.1 = b)

/-! ### Whole-machine rules -/

/-- The invariant is kept by every step: `SP` at most 16 (R25), no draw flag on a halted core (R106, R101, R226), and memory in its
canonical form, which is the model's own (log entry 9). -/
def Obligations.StepKeepsInvariant : Prop :=
  ∀ s t : State, s.Inv → step s = .next t → t.Inv

/-- The invariant, whose canonical form of memory is the model's own (log entry 9), holds after reset, for every choice of the
parameters. -/
def Obligations.ResetMeetsInvariant : Prop :=
  State.reset.Inv ∧ ∀ c : Config, (State.resetWith c).Inv

/-- No step stops: from every state of the invariant a step answers a next state, whatever the word at `PC`, the keys, the draw
and the ticks are (R103, R110, R226). The spec's decisions D2, D3, D4. -/
def Obligations.EveryStepCompletes : Prop :=
  ∀ s : State, s.Inv → ∃ t, step s = .next t

/-- R106: after a step that is not refused, the draw flag is 1 exactly when the instruction was `00E0` or `Dxyn`, and exactly
when `Redraw` was emitted. -/
def Obligations.DrawFlagMarksDisplaySteps : Prop :=
  ∀ s t : State, s.halted = false → step s = .next t →
    (t.drawFlag = true ↔ decode s.wordAtPc = .ok .cls ∨ ∃ x y n, decode s.wordAtPc = .ok (.drw x y n)) ∧
    (t.drawFlag = true ↔ Event.redraw ∈ t.events)

/-- R31: the latch is set by a fatal fault and by nothing else, and no step clears it. The spec's decision D3. -/
def Obligations.OnlyFatalFaultsHalt : Prop :=
  ∀ s t : State, step s = .next t →
    (t.halted = true ↔ s.halted = true ∨ ∃ c, Event.fatal c s.pc ∈ t.events)

/-- R226: a step that raises a fatal fault leaves every register, byte, slot, cell, `SP` and `PC` as before, the timers but for
the driver's ticks; it sets the latch, emits the event last, ends with the draw flag 0 and answers `HALTED`, with no tick of
its own. That the driver's ticks before a step are counted with it is log entry 2. The spec's decision D3. -/
def Obligations.FatalFaultIsPrecise : Prop :=
  ∀ (s t : State) (c : FatalCode), s.halted = false → step s = .next t → Event.fatal c s.pc ∈ t.events →
    KeepsRegs (fun _ => False) s t ∧ KeepsMemory (fun _ => False) s t ∧ TimersDown s.env.ticks s t ∧
    t = { s with
          dt := t.dt, st := t.st, halted := true, drawFlag := false, status := .halted
          events := boundsEvents .fetch [s.pc.toNat, s.pc.toNat + 1] ++ [.fatal c s.pc]
          history := s.history ++ s.events, inputs := s.inputs.tail, cycle := s.cycle + 1 }

/-- R24 to R29, R31, R63: which instructions can change `SP` and the stack, `I`, `DT`, `ST`, the framebuffer, memory and the
latch; no instruction changes the parameters, the history or the inputs. -/
def Obligations.OnlyNamedInstructionsWriteSpecialState : Prop :=
  ∀ (i : Instr) (s t : State), exec i s = .next t →
    (t.sp ≠ s.sp ∨ t.halted ≠ s.halted → i = .ret ∨ ∃ nnn, i = .call nnn) ∧
    (t.stack ≠ s.stack → ∃ nnn, i = .call nnn) ∧
    (t.i ≠ s.i → (∃ nnn, i = .ldINnn nnn) ∨ (∃ x, i = .addIVx x) ∨ ∃ x, i = .ldFVx x) ∧
    (t.dt ≠ s.dt → ∃ x, i = .ldDtVx x) ∧ (t.st ≠ s.st → ∃ x, i = .ldStVx x) ∧
    (t.fb ≠ s.fb → i = .cls ∨ ∃ x y n, i = .drw x y n) ∧
    (t.mem ≠ s.mem → (∃ x, i = .ldBVx x) ∨ ∃ x, i = .ldMemVx x) ∧
    t.config = s.config ∧ t.history = s.history ∧ t.inputs = s.inputs ∧ t.cycle = s.cycle

/-- R22: VF is changed by the five flag writers and by instructions that name F as their destination, and by no other. -/
def Obligations.OnlyNamedInstructionsWriteVf : Prop :=
  ∀ (i : Instr) (s t : State), exec i s = .next t → t.reg 0xF ≠ s.reg 0xF →
    (∃ x y, i = .addVxVy x y) ∨ (∃ x y, i = .subVxVy x y) ∨ (∃ x y, i = .shrVx x y) ∨ (∃ x y, i = .shlVx x y) ∨
      (∃ x y n, i = .drw x y n) ∨
      (∃ nn, i = .ldVxNn 0xF nn ∨ i = .addVxNn 0xF nn ∨ i = .rnd 0xF nn) ∨
      (∃ y, i = .ldVxVy 0xF y ∨ i = .orVxVy 0xF y ∨ i = .andVxVy 0xF y ∨ i = .xorVxVy 0xF y) ∨
      i = .ldVxDt 0xF ∨ i = .ldVxK 0xF ∨ i = .ldVxMem 0xF

/-- R272: a step of a core that is not halted, with `PC` at most 0xFFE, whose instruction meets the obligations of software,
reports no diagnostic event and does not halt, so a clean run stays clean (R220). The reports it rules out are
those of the spec's decisions D2, D3, D4, D10. -/
def Obligations.ObedientStepReportsNothing : Prop :=
  ∀ (s t : State) (i : Instr), s.Inv → s.halted = false → s.pc.toNat ≤ 0xFFE → decode s.wordAtPc = .ok i →
    s.MeetsObligations i → step s = .next t →
    t.halted = false ∧ (∀ e ∈ t.events, e.isDiagnostic = false) ∧ (s.Clean → t.Clean)

/-- R268 (a): from the idle loop a step answers `OK` and leaves the idle loop and everything but the timers as it was; the only
event it can report is the fetch's, with `PC` at 0xFFF. The spec's decision D26. -/
def Obligations.IdleLoopIsFinal : Prop :=
  ∀ s : State, s.Idle →
    ∃ t, step s = .next t ∧ t.Idle ∧ t.status = .ok ∧ (s.pc.toNat ≠ 0xFFF → t.events = []) ∧
      KeepsRegs (fun _ => False) s t ∧ KeepsMemory (fun _ => False) s t ∧
      t = { s with
            dt := t.dt, st := t.st, drawFlag := false, status := .ok, history := s.history ++ s.events
            events := boundsEvents .fetch [s.pc.toNat, s.pc.toNat + 1]
            inputs := s.inputs.tail, cycle := s.cycle + 1 }

/-! ### The driver's operations -/

/-- R232, R233: one tick takes each timer down by one with a floor of zero, independently, and changes nothing else; `n` ticks
take each down by `n`, so a timer of `v` is 0 after `v` ticks and stays 0. -/
def Obligations.TickCountsDownToZero : Prop :=
  ∀ s : State,
    TimersDown 1 s s.tick ∧ s.tick = { s with dt := s.tick.dt, st := s.tick.st } ∧
    ∀ n : Nat, TimersDown n s (State.tick^[n] s)

/-- R266, R221: an image of at most 3584 bytes is copied to 0x200 and up and nothing else changes; a longer one is refused with
`LoadError` and nothing else changes. The spec's decision D23. -/
def Obligations.LoadCopiesImage : Prop :=
  ∀ (bytes : List Byte) (s : State),
    (bytes.length ≤ 3584 →
      ∃ t, applyLoad bytes s = (.ok, t) ∧
        (Memory.wf s.config s.mem = true → ∀ k, (h : k < bytes.length) → t.peek (0x200 + k) = bytes[k]) ∧
        KeepsMemory (fun a => 0x200 ≤ a ∧ a < 0x200 + bytes.length) s t ∧
        t = { s with mem := t.mem, events := [], history := s.history ++ s.events }) ∧
    (3584 < bytes.length →
      applyLoad bytes s =
        (.error, { s with events := [.loadError bytes.length], history := s.history ++ s.events }))

/-- R260, R36: `reset` gives the state of the table whatever the state was, and the state right after reset is that state under
the default parameters. The spec's decisions D9, D11. -/
def Obligations.ResetGivesResetState : Prop :=
  (∀ s : State, IsResetState s.config (applyReset s) ∧ (applyReset s).config = s.config) ∧
    IsResetState defaultConfig State.reset

/-! ### Control flow -/

/-- R120: with 1 to 16 return addresses `00EE` pops the top into `PC`, the slot kept; with none it is the fatal fault
`StackUnderflow`. The stop on `SP` above 16 is the model's own (log entry 7). The spec's decisions D3, D7, D8. -/
def Obligations.ReturnPopsAddress : Prop :=
  WordsDecodeTo 0xFFFF 0x00EE (fun _ => .ret) ∧
  ∀ s : State,
    (1 ≤ s.sp.toNat → s.sp.toNat ≤ 16 →
      ∃ t, exec .ret s = .next t ∧ t.sp.toNat = s.sp.toNat - 1 ∧ t.pc = s.slot (s.sp.toNat - 1) ∧
        (∀ k, t.slot k = s.slot k) ∧ KeepsMemory (fun _ => False) s t ∧ t = { s with sp := t.sp, pc := t.pc }) ∧
    (s.sp.toNat = 0 → ∃ t, exec .ret s = .next t ∧ FatalTaken .stackUnderflow s t) ∧
    (16 < s.sp.toNat → exec .ret s = .fault .stackPointerIllegal)

/-- R121: `1nnn` sets `PC` to `nnn`. -/
def Obligations.JumpSetsPc : Prop :=
  WordsDecodeTo 0xF000 0x1000 (fun w => .jp (fieldNnn w)) ∧
  ∀ (nnn : Addr12) (s : State), ∃ t, exec (.jp nnn) s = .next t ∧ t.pc.toNat = nnn.toNat ∧ OnlyPc s t

/-- R122: with fewer than 16 return addresses `2nnn` stores `PC + 2` modulo 65536 in the next slot and sets `PC` to `nnn`; with 16
it is the fatal fault `StackOverflow`. The stop on `SP` above 16 is the model's own (log entry 7). The spec's decisions D3, D7,
D8. -/
def Obligations.CallPushesReturnAddress : Prop :=
  WordsDecodeTo 0xF000 0x2000 (fun w => .call (fieldNnn w)) ∧
  ∀ (nnn : Addr12) (s : State),
    (s.sp.toNat < 16 →
      ∃ t, exec (.call nnn) s = .next t ∧ (t.slot s.sp.toNat).toNat = (s.pc.toNat + 2) % 65536 ∧
        (∀ k, k ≠ s.sp.toNat → t.slot k = s.slot k) ∧ t.sp.toNat = s.sp.toNat + 1 ∧ t.pc.toNat = nnn.toNat ∧
        KeepsMemory (fun _ => False) s t ∧ t = { s with stack := t.stack, sp := t.sp, pc := t.pc }) ∧
    (s.sp.toNat = 16 → ∃ t, exec (.call nnn) s = .next t ∧ FatalTaken .stackOverflow s t) ∧
    (16 < s.sp.toNat → exec (.call nnn) s = .fault .stackPointerIllegal)

/-- The source's test of R122 and R120: a return from any state in which the subroutine left `SP` and its slot as the call made
them goes to the instruction after the call, at the depth before the call. The spec's decisions D7, D8. -/
def Obligations.CallThenReturnResumes : Prop :=
  ∀ (nnn : Addr12) (s : State), s.sp.toNat < 16 →
    ∃ t, exec (.call nnn) s = .next t ∧
      ∀ t' : State, t'.sp = t.sp → t'.slot s.sp.toNat = t.slot s.sp.toNat →
        ∃ u, exec .ret t' = .next u ∧ PcMovesBy 2 s u ∧ u.sp = s.sp

/-- R123, R124: the skips on a register and an immediate. -/
def Obligations.SkipsCompareWithImmediate : Prop :=
  WordsDecodeTo 0xF000 0x3000 (fun w => .seVxNn (fieldX w) (fieldNn w)) ∧
  WordsDecodeTo 0xF000 0x4000 (fun w => .sneVxNn (fieldX w) (fieldNn w)) ∧
  ∀ (x : Nibble) (nn : Byte) (s : State),
    (∃ t, exec (.seVxNn x nn) s = .next t ∧ OnlyPc s t ∧
      PcMovesBy (if (s.reg x).toNat = nn.toNat then 4 else 2) s t) ∧
    (∃ t, exec (.sneVxNn x nn) s = .next t ∧ OnlyPc s t ∧
      PcMovesBy (if (s.reg x).toNat = nn.toNat then 2 else 4) s t)

/-- R125, R126: the skips on two registers, whose words with another last nibble are unknown opcodes; with `x = y` the first
always skips and the second never does. -/
def Obligations.SkipsCompareRegisters : Prop :=
  WordsDecodeTo 0xF00F 0x5000 (fun w => .seVxVy (fieldX w) (fieldY w)) ∧
  WordsDecodeTo 0xF00F 0x9000 (fun w => .sneVxVy (fieldX w) (fieldY w)) ∧
  (∀ w : Word, w &&& 0xF000 = 0x5000 ∨ w &&& 0xF000 = 0x9000 → fieldN w ≠ 0 → decode w = .error (.unknownOpcode w)) ∧
  ∀ (x y : Nibble) (s : State),
    (∃ t, exec (.seVxVy x y) s = .next t ∧ OnlyPc s t ∧
      PcMovesBy (if (s.reg x).toNat = (s.reg y).toNat then 4 else 2) s t) ∧
    (∃ t, exec (.sneVxVy x y) s = .next t ∧ OnlyPc s t ∧
      PcMovesBy (if (s.reg x).toNat = (s.reg y).toNat then 2 else 4) s t)

/-- R128, R110: every word 0xB000 to 0xBFFF is the reserved pattern, and running it reports the word as an unknown opcode and
advances `PC` by 2; nothing else changes. The spec's decision D2; log entry 11. -/
def Obligations.ReservedPatternIsUnknown : Prop :=
  ∀ w : Word, 0xB000 ≤ w.toNat → w.toNat ≤ 0xBFFF →
    decode w = .ok (.reservedBnnn (fieldNnn w)) ∧
    ∀ s : State, ∃ t, exec (.reservedBnnn (fieldNnn w)) s = .next t ∧ PcMovesBy 2 s t ∧
      t.events = s.events ++ [.unknownOpcode w s.pc] ∧ KeepsMemory (fun _ => False) s t ∧
      t = { s with pc := t.pc, events := t.events }

/-! ### Register loads and the ALU -/

/-- R140: `6xnn` loads the immediate. -/
def Obligations.LoadImmediateWritesVx : Prop :=
  WordsDecodeTo 0xF000 0x6000 (fun w => .ldVxNn (fieldX w) (fieldNn w)) ∧
  ∀ (x : Nibble) (nn : Byte) (s : State), ∃ t, exec (.ldVxNn x nn) s = .next t ∧ t.reg x = nn ∧
    PcMovesBy 2 s t ∧ OnlyRegsAndPc (fun r => r = x) s t

/-- R141: `7xnn` adds the immediate modulo 256 and writes no flag: VF changes only when it is the destination. -/
def Obligations.AddImmediateWritesNoFlag : Prop :=
  WordsDecodeTo 0xF000 0x7000 (fun w => .addVxNn (fieldX w) (fieldNn w)) ∧
  ∀ (x : Nibble) (nn : Byte) (s : State), ∃ t, exec (.addVxNn x nn) s = .next t ∧
    (t.reg x).toNat = ((s.reg x).toNat + nn.toNat) % 256 ∧ PcMovesBy 2 s t ∧ OnlyRegsAndPc (fun r => r = x) s t

/-- R142: `8xy0` copies a register. -/
def Obligations.CopyRegisterWritesVx : Prop :=
  WordsDecodeTo 0xF00F 0x8000 (fun w => .ldVxVy (fieldX w) (fieldY w)) ∧
  ∀ (x y : Nibble) (s : State), ∃ t, exec (.ldVxVy x y) s = .next t ∧ t.reg x = s.reg y ∧
    PcMovesBy 2 s t ∧ OnlyRegsAndPc (fun r => r = x) s t

/-- R143 to R145: the bitwise operations act on each bit and write no flag. -/
def Obligations.BitwiseOperationsActOnEachBit : Prop :=
  WordsDecodeTo 0xF00F 0x8001 (fun w => .orVxVy (fieldX w) (fieldY w)) ∧
  WordsDecodeTo 0xF00F 0x8002 (fun w => .andVxVy (fieldX w) (fieldY w)) ∧
  WordsDecodeTo 0xF00F 0x8003 (fun w => .xorVxVy (fieldX w) (fieldY w)) ∧
  ∀ (x y : Nibble) (s : State),
    (∃ t, exec (.orVxVy x y) s = .next t ∧ PcMovesBy 2 s t ∧ OnlyRegsAndPc (fun r => r = x) s t ∧
      ∀ k, k < 8 → (t.reg x).getLsbD k = ((s.reg x).getLsbD k || (s.reg y).getLsbD k)) ∧
    (∃ t, exec (.andVxVy x y) s = .next t ∧ PcMovesBy 2 s t ∧ OnlyRegsAndPc (fun r => r = x) s t ∧
      ∀ k, k < 8 → (t.reg x).getLsbD k = ((s.reg x).getLsbD k && (s.reg y).getLsbD k)) ∧
    (∃ t, exec (.xorVxVy x y) s = .next t ∧ PcMovesBy 2 s t ∧ OnlyRegsAndPc (fun r => r = x) s t ∧
      ∀ k, k < 8 → (t.reg x).getLsbD k = ((s.reg x).getLsbD k != (s.reg y).getLsbD k))

/-- R146: `8xy4` writes the sum modulo 256, then the carry to VF; with `x = F` the carry, the second write, stays, and with
`y = F` the old VF is the addend. The cases `x = F` and `y = F` rest on the spec's decision D6 (R107; log entry 10). -/
def Obligations.AddWritesSumThenCarry : Prop :=
  WordsDecodeTo 0xF00F 0x8004 (fun w => .addVxVy (fieldX w) (fieldY w)) ∧
  ∀ (x y : Nibble) (s : State), ∃ t, exec (.addVxVy x y) s = .next t ∧
    (x ≠ 0xF → (t.reg x).toNat = ((s.reg x).toNat + (s.reg y).toNat) % 256) ∧
    (t.reg 0xF).toNat = (if 255 < (s.reg x).toNat + (s.reg y).toNat then 1 else 0) ∧
    PcMovesBy 2 s t ∧ OnlyRegsAndPc (fun r => r = x ∨ r = 0xF) s t

/-- R147: `8xy5` writes the not-borrow to VF, then the difference modulo 256; with `x = F` the difference, the second
write, stays, and with `y = F` the old VF is subtracted. The cases `x = F` and `y = F` rest on the spec's decision D6 (R107; log
entry 10). -/
def Obligations.SubtractWritesNotBorrowThenDifference : Prop :=
  WordsDecodeTo 0xF00F 0x8005 (fun w => .subVxVy (fieldX w) (fieldY w)) ∧
  ∀ (x y : Nibble) (s : State), ∃ t, exec (.subVxVy x y) s = .next t ∧
    (t.reg x).toNat = (if (s.reg x).toNat < (s.reg y).toNat then (s.reg x).toNat + 256 - (s.reg y).toNat
      else (s.reg x).toNat - (s.reg y).toNat) ∧
    (x ≠ 0xF → (t.reg 0xF).toNat = if (s.reg x).toNat < (s.reg y).toNat then 0 else 1) ∧
    PcMovesBy 2 s t ∧ OnlyRegsAndPc (fun r => r = x ∨ r = 0xF) s t

/-- R148: `8xy6` writes bit 0 of `Vx` to VF, then `Vx / 2`; every `y` decodes and none is read; with `x = F` the shifted value,
the second write, stays. The case `x = F` rests on the spec's decision D6 (R107; log entry 10). -/
def Obligations.ShiftRightWritesBitThenHalf : Prop :=
  WordsDecodeTo 0xF00F 0x8006 (fun w => .shrVx (fieldX w) (fieldY w)) ∧
  ∀ (x y : Nibble) (s : State), ∃ t, exec (.shrVx x y) s = .next t ∧ (t.reg x).toNat = (s.reg x).toNat / 2 ∧
    (x ≠ 0xF → (t.reg 0xF).toNat = (s.reg x).toNat % 2) ∧
    PcMovesBy 2 s t ∧ OnlyRegsAndPc (fun r => r = x ∨ r = 0xF) s t

/-- R149: `8xyE` writes bit 7 of `Vx` to VF, then `Vx * 2` modulo 256; every `y` decodes and none is read; with `x = F` the
shifted value, the second write, stays. The case `x = F` rests on the spec's decision D6 (R107; log entry 10). -/
def Obligations.ShiftLeftWritesBitThenDouble : Prop :=
  WordsDecodeTo 0xF00F 0x800E (fun w => .shlVx (fieldX w) (fieldY w)) ∧
  ∀ (x y : Nibble) (s : State), ∃ t, exec (.shlVx x y) s = .next t ∧ (t.reg x).toNat = (s.reg x).toNat * 2 % 256 ∧
    (x ≠ 0xF → (t.reg 0xF).toNat = (s.reg x).toNat / 128) ∧
    PcMovesBy 2 s t ∧ OnlyRegsAndPc (fun r => r = x ∨ r = 0xF) s t

/-- R150: `Cxnn` writes the step's draw masked by `nn`, whatever the draw is; no bit outside `nn` is set. -/
def Obligations.RandomIsMaskedByNn : Prop :=
  WordsDecodeTo 0xF000 0xC000 (fun w => .rnd (fieldX w) (fieldNn w)) ∧
  ∀ (x : Nibble) (nn : Byte) (s : State), ∃ t, exec (.rnd x nn) s = .next t ∧ PcMovesBy 2 s t ∧
    OnlyRegsAndPc (fun r => r = x) s t ∧
    ∀ k, k < 8 → (t.reg x).getLsbD k = (s.env.random.getLsbD k && nn.getLsbD k)

/-! ### Index and memory -/

/-- R170: `Annn` sets `I` to `nnn`. -/
def Obligations.LoadIndexSetsI : Prop :=
  WordsDecodeTo 0xF000 0xA000 (fun w => .ldINnn (fieldNnn w)) ∧
  ∀ (nnn : Addr12) (s : State), ∃ t, exec (.ldINnn nnn) s = .next t ∧ t.i.toNat = nnn.toNat ∧ PcMovesBy 2 s t ∧
    KeepsMemory (fun _ => False) s t ∧ t = { s with i := t.i, pc := t.pc }

/-- R171: `Fx1E` adds `Vx` to `I` modulo 65536, not 4096, and writes no flag (the spec's decision D5). -/
def Obligations.AddIndexWrapsAtSixteenBits : Prop :=
  WordsDecodeTo 0xF0FF 0xF01E (fun w => .addIVx (fieldX w)) ∧
  ∀ (x : Nibble) (s : State), ∃ t, exec (.addIVx x) s = .next t ∧
    t.i.toNat = (s.i.toNat + (s.reg x).toNat) % 65536 ∧ PcMovesBy 2 s t ∧
    KeepsMemory (fun _ => False) s t ∧ t = { s with i := t.i, pc := t.pc }

/-- R174, R56: `Fx29` sets `I` to `FONT_BASE + 5*g` for the low digit `g` of `Vx`, for every `FONT_BASE`, and reports a value
above 15 (the spec's decisions D9, D10). -/
def Obligations.FontAddressOfLowDigit : Prop :=
  WordsDecodeTo 0xF0FF 0xF029 (fun w => .ldFVx (fieldX w)) ∧
  ∀ (x : Nibble) (s : State), ∃ t, exec (.ldFVx x) s = .next t ∧
    t.i.toNat = s.config.fontBase.val + 5 * ((s.reg x).toNat % 16) ∧ t.i.toNat + 5 ≤ 0x200 ∧
    t.events = s.events ++ rangeEvents (s.reg x) .font ∧ PcMovesBy 2 s t ∧
    KeepsMemory (fun _ => False) s t ∧ t = { s with i := t.i, pc := t.pc, events := t.events }

/-- R175: `Fx33` stores the hundreds, tens and units of `Vx` at `I`, `I + 1`, `I + 2`, each address modulo 4096 and reported when
above 4095; every other byte reads as before. -/
def Obligations.BcdStoresThreeDigits : Prop :=
  WordsDecodeTo 0xF0FF 0xF033 (fun w => .ldBVx (fieldX w)) ∧
  ∀ (x : Nibble) (s : State), ∃ t, exec (.ldBVx x) s = .next t ∧
    (Memory.wf s.config s.mem = true →
      (t.peek (s.i.toNat % 4096)).toNat = (s.reg x).toNat / 100 ∧
      (t.peek ((s.i.toNat + 1) % 4096)).toNat = (s.reg x).toNat / 10 % 10 ∧
      (t.peek ((s.i.toNat + 2) % 4096)).toNat = (s.reg x).toNat % 10) ∧
    KeepsMemory (s.StoresAt 3) s t ∧ t.events = s.events ++ boundsEvents .write (s.dataAddresses 3) ∧
    PcMovesBy 2 s t ∧ t = { s with mem := t.mem, pc := t.pc, events := t.events }

/-- R176: `Fx55` stores `V[0]` to `V[x]` at `I` to `I + x`, each address modulo 4096 and reported when above 4095; `I`, the registers
and every other byte are as before. -/
def Obligations.RegisterDumpStoresV0ToVx : Prop :=
  WordsDecodeTo 0xF0FF 0xF055 (fun w => .ldMemVx (fieldX w)) ∧
  ∀ (x : Nibble) (s : State), ∃ t, exec (.ldMemVx x) s = .next t ∧
    (Memory.wf s.config s.mem = true →
      ∀ k : Nibble, k.toNat ≤ x.toNat → t.peek ((s.i.toNat + k.toNat) % 4096) = s.reg k) ∧
    KeepsMemory (s.StoresAt (x.toNat + 1)) s t ∧
    t.events = s.events ++ boundsEvents .write (s.dataAddresses (x.toNat + 1)) ∧
    PcMovesBy 2 s t ∧ t = { s with mem := t.mem, pc := t.pc, events := t.events }

/-- R177: `Fx65` loads `V[0]` to `V[x]` from `I` to `I + x`, each address modulo 4096 and reported when above 4095; `I`, memory and
the other registers are as before. -/
def Obligations.RegisterLoadReadsV0ToVx : Prop :=
  WordsDecodeTo 0xF0FF 0xF065 (fun w => .ldVxMem (fieldX w)) ∧
  ∀ (x : Nibble) (s : State), ∃ t, exec (.ldVxMem x) s = .next t ∧
    (∀ k : Nibble, k.toNat ≤ x.toNat → t.reg k = s.peek ((s.i.toNat + k.toNat) % 4096)) ∧
    KeepsRegs (fun r => r.toNat ≤ x.toNat) s t ∧ KeepsMemory (fun _ => False) s t ∧
    t.events = s.events ++ boundsEvents .read (s.dataAddresses (x.toNat + 1)) ∧
    PcMovesBy 2 s t ∧ t = { s with v := t.v, pc := t.pc, events := t.events }

/-! ### Display -/

/-- R190: `00E0` clears every cell and raises the redraw; VF and the rest are as before. -/
def Obligations.ClearScreenClearsEveryCell : Prop :=
  WordsDecodeTo 0xFFFF 0x00E0 (fun _ => .cls) ∧
  ∀ s : State, ∃ t, exec .cls s = .next t ∧ (∀ k, k < 2048 → t.cell k = false) ∧ t.drawFlag = true ∧
    t.events = s.events ++ [.redraw] ∧ PcMovesBy 2 s t ∧ KeepsMemory (fun _ => False) s t ∧
    t = { s with fb := t.fb, drawFlag := t.drawFlag, pc := t.pc, events := t.events }

/-- R191, R192: `Dxyn` flips exactly the cells under a 1 bit of the sprite, with per-pixel wrap and the coordinates VF held
before; VF is 1 exactly when a flipped cell was 1; each sprite byte above 4095 is reported; the redraw is always raised.
That with `x = F` or `y = F` the coordinate is the old VF rests on the spec's decision D6 (R107; log entry 10). -/
def Obligations.DrawFlipsCoveredCells : Prop :=
  WordsDecodeTo 0xF000 0xD000 (fun w => .drw (fieldX w) (fieldY w) (fieldN w)) ∧
  ∀ (x y n : Nibble) (s : State), ∃ t, exec (.drw x y n) s = .next t ∧
    (∀ px py, px < 64 → py < 32 →
      t.cell (px + 64 * py) = (s.cell (px + 64 * py) != s.spriteCovers x y n px py)) ∧
    ((t.reg 0xF = 1 ∧ ∃ px py, px < 64 ∧ py < 32 ∧ s.spriteCovers x y n px py = true ∧ s.cell (px + 64 * py) = true) ∨
      (t.reg 0xF = 0 ∧ ∀ px py, px < 64 → py < 32 → s.spriteCovers x y n px py = true →
        s.cell (px + 64 * py) = false)) ∧
    KeepsRegs (fun r => r = 0xF) s t ∧ KeepsMemory (fun _ => False) s t ∧ t.drawFlag = true ∧
    t.events = s.events ++ boundsEvents .read (s.dataAddresses n.toNat) ++ [.redraw] ∧ PcMovesBy 2 s t ∧
    t = { s with v := t.v, fb := t.fb, drawFlag := t.drawFlag, pc := t.pc, events := t.events }

/-- R193 (b): drawing the same sprite at the same place twice restores the framebuffer, and VF is 1 after the second draw exactly
when some cell under a 1 bit of the sprite was 0 before the first. The spec derives it. With `x = F` or `y = F` it rests on the spec's
decision D6 (R107; log entry 10). -/
def Obligations.DrawTwiceRestoresFramebuffer : Prop :=
  ∀ (x y n : Nibble) (s t : State), exec (.drw x y n) s = .next t →
    (t.reg x).toNat % 64 = (s.reg x).toNat % 64 → (t.reg y).toNat % 32 = (s.reg y).toNat % 32 →
    ∃ u, exec (.drw x y n) t = .next u ∧ u.fb = s.fb ∧
      (u.reg 0xF = 1 ↔ ∃ px py, px < 64 ∧ py < 32 ∧ s.spriteCovers x y n px py = true ∧
        s.cell (px + 64 * py) = false)

/-! ### Keypad and timers -/

/-- R202, R203: the key skips look at the key named by the low 4 bits of `Vx`, whatever the Input Source answers, and report a
value above 15 (the spec's decision D10). -/
def Obligations.KeySkipsFollowKeyPressed : Prop :=
  WordsDecodeTo 0xF0FF 0xE09E (fun w => .skp (fieldX w)) ∧
  WordsDecodeTo 0xF0FF 0xE0A1 (fun w => .sknp (fieldX w)) ∧
  ∀ (x k : Nibble) (s : State), k.toNat = (s.reg x).toNat % 16 →
    (∃ t, exec (.skp x) s = .next t ∧ PcMovesBy (if s.keyPressed k then 4 else 2) s t ∧
      t.events = s.events ++ rangeEvents (s.reg x) .key ∧ KeepsMemory (fun _ => False) s t ∧
      t = { s with pc := t.pc, events := t.events }) ∧
    (∃ t, exec (.sknp x) s = .next t ∧ PcMovesBy (if s.keyPressed k then 2 else 4) s t ∧
      t.events = s.events ++ rangeEvents (s.reg x) .key ∧ KeepsMemory (fun _ => False) s t ∧
      t = { s with pc := t.pc, events := t.events })

/-- R209: with a key reported, `Fx0A` loads its number, advances and answers `OK`; with none it answers `WAITING` and changes
nothing, `PC` included, so that the same address is fetched again. A waiting step keeps the timers counting and ends with the
draw flag 0. That the driver's ticks before a step are counted with it is the model's choice (log entry 2). -/
def Obligations.KeyWaitNeverBlocks : Prop :=
  WordsDecodeTo 0xF0FF 0xF00A (fun w => .ldVxK (fieldX w)) ∧
  ∀ (x : Nibble) (s : State),
    (s.env.poll = none →
      ∃ t, exec (.ldVxK x) s = .next t ∧ t = { s with status := .waiting } ∧ KeepsMemory (fun _ => False) s t) ∧
    (∀ k : Nibble, s.env.poll = some k →
      ∃ t, exec (.ldVxK x) s = .next t ∧ (t.reg x).toNat = k.toNat ∧ PcMovesBy 2 s t ∧ t.status = .ok ∧
        KeepsRegs (fun r => r = x) s t ∧ KeepsMemory (fun _ => False) s t ∧
        t = { s with v := t.v, pc := t.pc, status := t.status }) ∧
    (s.halted = false → decode s.wordAtPc = .ok (.ldVxK x) → s.env.poll = none →
      ∃ t, step s = .next t ∧ t.status = .waiting ∧ t.pc = s.pc ∧ t.drawFlag = false ∧ t.halted = false ∧
        KeepsRegs (fun _ => False) s t ∧ KeepsMemory (fun _ => False) s t ∧
        TimersDown (s.env.ticks + if s.config.tickPerStep then 1 else 0) s t)

/-- R204: `Fx07` reads the delay timer and leaves it. In a step the value read is that after the ticks before the step and
before the step's own tick. That the driver's ticks before a step are counted with it is the model's choice (log entry 2). -/
def Obligations.ReadDelayTimer : Prop :=
  WordsDecodeTo 0xF0FF 0xF007 (fun w => .ldVxDt (fieldX w)) ∧
  ∀ (x : Nibble) (s : State),
    (∃ t, exec (.ldVxDt x) s = .next t ∧ t.reg x = s.dt ∧ t.dt = s.dt ∧ PcMovesBy 2 s t ∧
      OnlyRegsAndPc (fun r => r = x) s t) ∧
    (s.halted = false → decode s.wordAtPc = .ok (.ldVxDt x) →
      ∃ t, step s = .next t ∧ (t.reg x).toNat = s.dt.toNat - s.env.ticks ∧
        TimersDown (s.env.ticks + if s.config.tickPerStep then 1 else 0) s t)

/-- R205: `Fx15` loads the delay timer. A step of it ends one lower, with a floor of zero, when `TICK_PER_STEP` is true. -/
def Obligations.LoadDelayTimer : Prop :=
  WordsDecodeTo 0xF0FF 0xF015 (fun w => .ldDtVx (fieldX w)) ∧
  ∀ (x : Nibble) (s : State),
    (∃ t, exec (.ldDtVx x) s = .next t ∧ t.dt = s.reg x ∧ PcMovesBy 2 s t ∧ KeepsMemory (fun _ => False) s t ∧
      t = { s with dt := t.dt, pc := t.pc }) ∧
    (s.halted = false → decode s.wordAtPc = .ok (.ldDtVx x) →
      ∃ t, step s = .next t ∧ t.dt.toNat = (s.reg x).toNat - if s.config.tickPerStep then 1 else 0)

/-- R206, R28: `Fx18` loads the sound timer, requests a tone of that value, also of 0 (the spec's decision D22), and
`sound_active` follows. -/
def Obligations.LoadSoundTimerRequestsTone : Prop :=
  WordsDecodeTo 0xF0FF 0xF018 (fun w => .ldStVx (fieldX w)) ∧
  ∀ (x : Nibble) (s : State), ∃ t, exec (.ldStVx x) s = .next t ∧ t.st = s.reg x ∧
    t.events = s.events ++ [.toneRequest (s.reg x)] ∧ (t.soundActive = true ↔ (s.reg x).toNat ≠ 0) ∧
    PcMovesBy 2 s t ∧ KeepsMemory (fun _ => False) s t ∧ t = { s with st := t.st, pc := t.pc, events := t.events }
end

