-- ==== Sys2Proof/Laws/State.lean ====
section
/-! SUPPORT. One lemma per field per update of State: what each named operation of Machine/Ops.lean leaves in each field.
The lemmas about registers, memory bytes and cells are in Laws/Ops.lean and Laws/Memory.lean. -/

namespace Sys2Proof.Machine

variable (s : State)

/-! ### setReg -/

@[simp] theorem State.setReg_v (x : Nibble) (b : Byte) : (s.setReg x b).v = s.v.set x.toNat b x.isLt := rfl
@[simp] theorem State.setReg_i (x : Nibble) (b : Byte) : (s.setReg x b).i = s.i := rfl
@[simp] theorem State.setReg_pc (x : Nibble) (b : Byte) : (s.setReg x b).pc = s.pc := rfl
@[simp] theorem State.setReg_sp (x : Nibble) (b : Byte) : (s.setReg x b).sp = s.sp := rfl
@[simp] theorem State.setReg_stack (x : Nibble) (b : Byte) : (s.setReg x b).stack = s.stack := rfl
@[simp] theorem State.setReg_dt (x : Nibble) (b : Byte) : (s.setReg x b).dt = s.dt := rfl
@[simp] theorem State.setReg_st (x : Nibble) (b : Byte) : (s.setReg x b).st = s.st := rfl
@[simp] theorem State.setReg_fb (x : Nibble) (b : Byte) : (s.setReg x b).fb = s.fb := rfl
@[simp] theorem State.setReg_mem (x : Nibble) (b : Byte) : (s.setReg x b).mem = s.mem := rfl
@[simp] theorem State.setReg_halted (x : Nibble) (b : Byte) : (s.setReg x b).halted = s.halted := rfl
@[simp] theorem State.setReg_drawFlag (x : Nibble) (b : Byte) : (s.setReg x b).drawFlag = s.drawFlag := rfl
@[simp] theorem State.setReg_status (x : Nibble) (b : Byte) : (s.setReg x b).status = s.status := rfl
@[simp] theorem State.setReg_events (x : Nibble) (b : Byte) : (s.setReg x b).events = s.events := rfl
@[simp] theorem State.setReg_history (x : Nibble) (b : Byte) : (s.setReg x b).history = s.history := rfl
@[simp] theorem State.setReg_inputs (x : Nibble) (b : Byte) : (s.setReg x b).inputs = s.inputs := rfl
@[simp] theorem State.setReg_cycle (x : Nibble) (b : Byte) : (s.setReg x b).cycle = s.cycle := rfl
@[simp] theorem State.setReg_config (x : Nibble) (b : Byte) : (s.setReg x b).config = s.config := rfl

/-! ### setIndex -/

@[simp] theorem State.setIndex_v (a : Word) : (s.setIndex a).v = s.v := rfl
@[simp] theorem State.setIndex_i (a : Word) : (s.setIndex a).i = a := rfl
@[simp] theorem State.setIndex_pc (a : Word) : (s.setIndex a).pc = s.pc := rfl
@[simp] theorem State.setIndex_sp (a : Word) : (s.setIndex a).sp = s.sp := rfl
@[simp] theorem State.setIndex_stack (a : Word) : (s.setIndex a).stack = s.stack := rfl
@[simp] theorem State.setIndex_dt (a : Word) : (s.setIndex a).dt = s.dt := rfl
@[simp] theorem State.setIndex_st (a : Word) : (s.setIndex a).st = s.st := rfl
@[simp] theorem State.setIndex_fb (a : Word) : (s.setIndex a).fb = s.fb := rfl
@[simp] theorem State.setIndex_mem (a : Word) : (s.setIndex a).mem = s.mem := rfl
@[simp] theorem State.setIndex_halted (a : Word) : (s.setIndex a).halted = s.halted := rfl
@[simp] theorem State.setIndex_drawFlag (a : Word) : (s.setIndex a).drawFlag = s.drawFlag := rfl
@[simp] theorem State.setIndex_status (a : Word) : (s.setIndex a).status = s.status := rfl
@[simp] theorem State.setIndex_events (a : Word) : (s.setIndex a).events = s.events := rfl
@[simp] theorem State.setIndex_history (a : Word) : (s.setIndex a).history = s.history := rfl
@[simp] theorem State.setIndex_inputs (a : Word) : (s.setIndex a).inputs = s.inputs := rfl
@[simp] theorem State.setIndex_cycle (a : Word) : (s.setIndex a).cycle = s.cycle := rfl
@[simp] theorem State.setIndex_config (a : Word) : (s.setIndex a).config = s.config := rfl

/-! ### setPc -/

@[simp] theorem State.setPc_v (a : Word) : (s.setPc a).v = s.v := rfl
@[simp] theorem State.setPc_i (a : Word) : (s.setPc a).i = s.i := rfl
@[simp] theorem State.setPc_pc (a : Word) : (s.setPc a).pc = a := rfl
@[simp] theorem State.setPc_sp (a : Word) : (s.setPc a).sp = s.sp := rfl
@[simp] theorem State.setPc_stack (a : Word) : (s.setPc a).stack = s.stack := rfl
@[simp] theorem State.setPc_dt (a : Word) : (s.setPc a).dt = s.dt := rfl
@[simp] theorem State.setPc_st (a : Word) : (s.setPc a).st = s.st := rfl
@[simp] theorem State.setPc_fb (a : Word) : (s.setPc a).fb = s.fb := rfl
@[simp] theorem State.setPc_mem (a : Word) : (s.setPc a).mem = s.mem := rfl
@[simp] theorem State.setPc_halted (a : Word) : (s.setPc a).halted = s.halted := rfl
@[simp] theorem State.setPc_drawFlag (a : Word) : (s.setPc a).drawFlag = s.drawFlag := rfl
@[simp] theorem State.setPc_status (a : Word) : (s.setPc a).status = s.status := rfl
@[simp] theorem State.setPc_events (a : Word) : (s.setPc a).events = s.events := rfl
@[simp] theorem State.setPc_history (a : Word) : (s.setPc a).history = s.history := rfl
@[simp] theorem State.setPc_inputs (a : Word) : (s.setPc a).inputs = s.inputs := rfl
@[simp] theorem State.setPc_cycle (a : Word) : (s.setPc a).cycle = s.cycle := rfl
@[simp] theorem State.setPc_config (a : Word) : (s.setPc a).config = s.config := rfl

/-! ### advance -/

@[simp] theorem State.advance_v : (s.advance).v = s.v := rfl
@[simp] theorem State.advance_i : (s.advance).i = s.i := rfl
@[simp] theorem State.advance_pc : (s.advance).pc = s.pc + 2 := rfl
@[simp] theorem State.advance_sp : (s.advance).sp = s.sp := rfl
@[simp] theorem State.advance_stack : (s.advance).stack = s.stack := rfl
@[simp] theorem State.advance_dt : (s.advance).dt = s.dt := rfl
@[simp] theorem State.advance_st : (s.advance).st = s.st := rfl
@[simp] theorem State.advance_fb : (s.advance).fb = s.fb := rfl
@[simp] theorem State.advance_mem : (s.advance).mem = s.mem := rfl
@[simp] theorem State.advance_halted : (s.advance).halted = s.halted := rfl
@[simp] theorem State.advance_drawFlag : (s.advance).drawFlag = s.drawFlag := rfl
@[simp] theorem State.advance_status : (s.advance).status = s.status := rfl
@[simp] theorem State.advance_events : (s.advance).events = s.events := rfl
@[simp] theorem State.advance_history : (s.advance).history = s.history := rfl
@[simp] theorem State.advance_inputs : (s.advance).inputs = s.inputs := rfl
@[simp] theorem State.advance_cycle : (s.advance).cycle = s.cycle := rfl
@[simp] theorem State.advance_config : (s.advance).config = s.config := rfl

/-! ### setDelay -/

@[simp] theorem State.setDelay_v (b : Byte) : (s.setDelay b).v = s.v := rfl
@[simp] theorem State.setDelay_i (b : Byte) : (s.setDelay b).i = s.i := rfl
@[simp] theorem State.setDelay_pc (b : Byte) : (s.setDelay b).pc = s.pc := rfl
@[simp] theorem State.setDelay_sp (b : Byte) : (s.setDelay b).sp = s.sp := rfl
@[simp] theorem State.setDelay_stack (b : Byte) : (s.setDelay b).stack = s.stack := rfl
@[simp] theorem State.setDelay_dt (b : Byte) : (s.setDelay b).dt = b := rfl
@[simp] theorem State.setDelay_st (b : Byte) : (s.setDelay b).st = s.st := rfl
@[simp] theorem State.setDelay_fb (b : Byte) : (s.setDelay b).fb = s.fb := rfl
@[simp] theorem State.setDelay_mem (b : Byte) : (s.setDelay b).mem = s.mem := rfl
@[simp] theorem State.setDelay_halted (b : Byte) : (s.setDelay b).halted = s.halted := rfl
@[simp] theorem State.setDelay_drawFlag (b : Byte) : (s.setDelay b).drawFlag = s.drawFlag := rfl
@[simp] theorem State.setDelay_status (b : Byte) : (s.setDelay b).status = s.status := rfl
@[simp] theorem State.setDelay_events (b : Byte) : (s.setDelay b).events = s.events := rfl
@[simp] theorem State.setDelay_history (b : Byte) : (s.setDelay b).history = s.history := rfl
@[simp] theorem State.setDelay_inputs (b : Byte) : (s.setDelay b).inputs = s.inputs := rfl
@[simp] theorem State.setDelay_cycle (b : Byte) : (s.setDelay b).cycle = s.cycle := rfl
@[simp] theorem State.setDelay_config (b : Byte) : (s.setDelay b).config = s.config := rfl

/-! ### setSound -/

@[simp] theorem State.setSound_v (b : Byte) : (s.setSound b).v = s.v := rfl
@[simp] theorem State.setSound_i (b : Byte) : (s.setSound b).i = s.i := rfl
@[simp] theorem State.setSound_pc (b : Byte) : (s.setSound b).pc = s.pc := rfl
@[simp] theorem State.setSound_sp (b : Byte) : (s.setSound b).sp = s.sp := rfl
@[simp] theorem State.setSound_stack (b : Byte) : (s.setSound b).stack = s.stack := rfl
@[simp] theorem State.setSound_dt (b : Byte) : (s.setSound b).dt = s.dt := rfl
@[simp] theorem State.setSound_st (b : Byte) : (s.setSound b).st = b := rfl
@[simp] theorem State.setSound_fb (b : Byte) : (s.setSound b).fb = s.fb := rfl
@[simp] theorem State.setSound_mem (b : Byte) : (s.setSound b).mem = s.mem := rfl
@[simp] theorem State.setSound_halted (b : Byte) : (s.setSound b).halted = s.halted := rfl
@[simp] theorem State.setSound_drawFlag (b : Byte) : (s.setSound b).drawFlag = s.drawFlag := rfl
@[simp] theorem State.setSound_status (b : Byte) : (s.setSound b).status = s.status := rfl
@[simp] theorem State.setSound_events (b : Byte) : (s.setSound b).events = s.events := rfl
@[simp] theorem State.setSound_history (b : Byte) : (s.setSound b).history = s.history := rfl
@[simp] theorem State.setSound_inputs (b : Byte) : (s.setSound b).inputs = s.inputs := rfl
@[simp] theorem State.setSound_cycle (b : Byte) : (s.setSound b).cycle = s.cycle := rfl
@[simp] theorem State.setSound_config (b : Byte) : (s.setSound b).config = s.config := rfl

/-! ### push -/

@[simp] theorem State.push_v (a : Word) : (s.push a).v = s.v := rfl
@[simp] theorem State.push_i (a : Word) : (s.push a).i = s.i := rfl
@[simp] theorem State.push_pc (a : Word) : (s.push a).pc = s.pc := rfl
@[simp] theorem State.push_sp (a : Word) : (s.push a).sp = s.sp + 1 := rfl
@[simp] theorem State.push_stack (a : Word) : (s.push a).stack = s.stack.setIfInBounds s.sp.toNat a := rfl
@[simp] theorem State.push_dt (a : Word) : (s.push a).dt = s.dt := rfl
@[simp] theorem State.push_st (a : Word) : (s.push a).st = s.st := rfl
@[simp] theorem State.push_fb (a : Word) : (s.push a).fb = s.fb := rfl
@[simp] theorem State.push_mem (a : Word) : (s.push a).mem = s.mem := rfl
@[simp] theorem State.push_halted (a : Word) : (s.push a).halted = s.halted := rfl
@[simp] theorem State.push_drawFlag (a : Word) : (s.push a).drawFlag = s.drawFlag := rfl
@[simp] theorem State.push_status (a : Word) : (s.push a).status = s.status := rfl
@[simp] theorem State.push_events (a : Word) : (s.push a).events = s.events := rfl
@[simp] theorem State.push_history (a : Word) : (s.push a).history = s.history := rfl
@[simp] theorem State.push_inputs (a : Word) : (s.push a).inputs = s.inputs := rfl
@[simp] theorem State.push_cycle (a : Word) : (s.push a).cycle = s.cycle := rfl
@[simp] theorem State.push_config (a : Word) : (s.push a).config = s.config := rfl

/-! ### pop -/

@[simp] theorem State.pop_v : (s.pop).v = s.v := rfl
@[simp] theorem State.pop_i : (s.pop).i = s.i := rfl
@[simp] theorem State.pop_pc : (s.pop).pc = s.pc := rfl
@[simp] theorem State.pop_sp : (s.pop).sp = s.sp - 1 := rfl
@[simp] theorem State.pop_stack : (s.pop).stack = s.stack := rfl
@[simp] theorem State.pop_dt : (s.pop).dt = s.dt := rfl
@[simp] theorem State.pop_st : (s.pop).st = s.st := rfl
@[simp] theorem State.pop_fb : (s.pop).fb = s.fb := rfl
@[simp] theorem State.pop_mem : (s.pop).mem = s.mem := rfl
@[simp] theorem State.pop_halted : (s.pop).halted = s.halted := rfl
@[simp] theorem State.pop_drawFlag : (s.pop).drawFlag = s.drawFlag := rfl
@[simp] theorem State.pop_status : (s.pop).status = s.status := rfl
@[simp] theorem State.pop_events : (s.pop).events = s.events := rfl
@[simp] theorem State.pop_history : (s.pop).history = s.history := rfl
@[simp] theorem State.pop_inputs : (s.pop).inputs = s.inputs := rfl
@[simp] theorem State.pop_cycle : (s.pop).cycle = s.cycle := rfl
@[simp] theorem State.pop_config : (s.pop).config = s.config := rfl

/-! ### toggleCell -/

@[simp] theorem State.toggleCell_v (k : Nat) : (s.toggleCell k).v = s.v := rfl
@[simp] theorem State.toggleCell_i (k : Nat) : (s.toggleCell k).i = s.i := rfl
@[simp] theorem State.toggleCell_pc (k : Nat) : (s.toggleCell k).pc = s.pc := rfl
@[simp] theorem State.toggleCell_sp (k : Nat) : (s.toggleCell k).sp = s.sp := rfl
@[simp] theorem State.toggleCell_stack (k : Nat) : (s.toggleCell k).stack = s.stack := rfl
@[simp] theorem State.toggleCell_dt (k : Nat) : (s.toggleCell k).dt = s.dt := rfl
@[simp] theorem State.toggleCell_st (k : Nat) : (s.toggleCell k).st = s.st := rfl
@[simp] theorem State.toggleCell_fb (k : Nat) : (s.toggleCell k).fb = s.fb ^^^ (1#2048 <<< k) := rfl
@[simp] theorem State.toggleCell_mem (k : Nat) : (s.toggleCell k).mem = s.mem := rfl
@[simp] theorem State.toggleCell_halted (k : Nat) : (s.toggleCell k).halted = s.halted := rfl
@[simp] theorem State.toggleCell_drawFlag (k : Nat) : (s.toggleCell k).drawFlag = s.drawFlag := rfl
@[simp] theorem State.toggleCell_status (k : Nat) : (s.toggleCell k).status = s.status := rfl
@[simp] theorem State.toggleCell_events (k : Nat) : (s.toggleCell k).events = s.events := rfl
@[simp] theorem State.toggleCell_history (k : Nat) : (s.toggleCell k).history = s.history := rfl
@[simp] theorem State.toggleCell_inputs (k : Nat) : (s.toggleCell k).inputs = s.inputs := rfl
@[simp] theorem State.toggleCell_cycle (k : Nat) : (s.toggleCell k).cycle = s.cycle := rfl
@[simp] theorem State.toggleCell_config (k : Nat) : (s.toggleCell k).config = s.config := rfl

/-! ### clearCells -/

@[simp] theorem State.clearCells_v : (s.clearCells).v = s.v := rfl
@[simp] theorem State.clearCells_i : (s.clearCells).i = s.i := rfl
@[simp] theorem State.clearCells_pc : (s.clearCells).pc = s.pc := rfl
@[simp] theorem State.clearCells_sp : (s.clearCells).sp = s.sp := rfl
@[simp] theorem State.clearCells_stack : (s.clearCells).stack = s.stack := rfl
@[simp] theorem State.clearCells_dt : (s.clearCells).dt = s.dt := rfl
@[simp] theorem State.clearCells_st : (s.clearCells).st = s.st := rfl
@[simp] theorem State.clearCells_fb : (s.clearCells).fb = 0 := rfl
@[simp] theorem State.clearCells_mem : (s.clearCells).mem = s.mem := rfl
@[simp] theorem State.clearCells_halted : (s.clearCells).halted = s.halted := rfl
@[simp] theorem State.clearCells_drawFlag : (s.clearCells).drawFlag = s.drawFlag := rfl
@[simp] theorem State.clearCells_status : (s.clearCells).status = s.status := rfl
@[simp] theorem State.clearCells_events : (s.clearCells).events = s.events := rfl
@[simp] theorem State.clearCells_history : (s.clearCells).history = s.history := rfl
@[simp] theorem State.clearCells_inputs : (s.clearCells).inputs = s.inputs := rfl
@[simp] theorem State.clearCells_cycle : (s.clearCells).cycle = s.cycle := rfl
@[simp] theorem State.clearCells_config : (s.clearCells).config = s.config := rfl

/-! ### emit -/

@[simp] theorem State.emit_v (e : Event) : (s.emit e).v = s.v := rfl
@[simp] theorem State.emit_i (e : Event) : (s.emit e).i = s.i := rfl
@[simp] theorem State.emit_pc (e : Event) : (s.emit e).pc = s.pc := rfl
@[simp] theorem State.emit_sp (e : Event) : (s.emit e).sp = s.sp := rfl
@[simp] theorem State.emit_stack (e : Event) : (s.emit e).stack = s.stack := rfl
@[simp] theorem State.emit_dt (e : Event) : (s.emit e).dt = s.dt := rfl
@[simp] theorem State.emit_st (e : Event) : (s.emit e).st = s.st := rfl
@[simp] theorem State.emit_fb (e : Event) : (s.emit e).fb = s.fb := rfl
@[simp] theorem State.emit_mem (e : Event) : (s.emit e).mem = s.mem := rfl
@[simp] theorem State.emit_halted (e : Event) : (s.emit e).halted = s.halted := rfl
@[simp] theorem State.emit_drawFlag (e : Event) : (s.emit e).drawFlag = s.drawFlag := rfl
@[simp] theorem State.emit_status (e : Event) : (s.emit e).status = s.status := rfl
@[simp] theorem State.emit_events (e : Event) : (s.emit e).events = s.events ++ [e] := rfl
@[simp] theorem State.emit_history (e : Event) : (s.emit e).history = s.history := rfl
@[simp] theorem State.emit_inputs (e : Event) : (s.emit e).inputs = s.inputs := rfl
@[simp] theorem State.emit_cycle (e : Event) : (s.emit e).cycle = s.cycle := rfl
@[simp] theorem State.emit_config (e : Event) : (s.emit e).config = s.config := rfl

/-! ### newEvents -/

@[simp] theorem State.newEvents_v : (s.newEvents).v = s.v := rfl
@[simp] theorem State.newEvents_i : (s.newEvents).i = s.i := rfl
@[simp] theorem State.newEvents_pc : (s.newEvents).pc = s.pc := rfl
@[simp] theorem State.newEvents_sp : (s.newEvents).sp = s.sp := rfl
@[simp] theorem State.newEvents_stack : (s.newEvents).stack = s.stack := rfl
@[simp] theorem State.newEvents_dt : (s.newEvents).dt = s.dt := rfl
@[simp] theorem State.newEvents_st : (s.newEvents).st = s.st := rfl
@[simp] theorem State.newEvents_fb : (s.newEvents).fb = s.fb := rfl
@[simp] theorem State.newEvents_mem : (s.newEvents).mem = s.mem := rfl
@[simp] theorem State.newEvents_halted : (s.newEvents).halted = s.halted := rfl
@[simp] theorem State.newEvents_drawFlag : (s.newEvents).drawFlag = s.drawFlag := rfl
@[simp] theorem State.newEvents_status : (s.newEvents).status = s.status := rfl
@[simp] theorem State.newEvents_events : (s.newEvents).events = [] := rfl
@[simp] theorem State.newEvents_history : (s.newEvents).history = s.history ++ s.events := rfl
@[simp] theorem State.newEvents_inputs : (s.newEvents).inputs = s.inputs := rfl
@[simp] theorem State.newEvents_cycle : (s.newEvents).cycle = s.cycle := rfl
@[simp] theorem State.newEvents_config : (s.newEvents).config = s.config := rfl

/-! ### poke -/

@[simp] theorem State.poke_v (a : Nat) (b : Byte) : (s.poke a b).v = s.v := rfl
@[simp] theorem State.poke_i (a : Nat) (b : Byte) : (s.poke a b).i = s.i := rfl
@[simp] theorem State.poke_pc (a : Nat) (b : Byte) : (s.poke a b).pc = s.pc := rfl
@[simp] theorem State.poke_sp (a : Nat) (b : Byte) : (s.poke a b).sp = s.sp := rfl
@[simp] theorem State.poke_stack (a : Nat) (b : Byte) : (s.poke a b).stack = s.stack := rfl
@[simp] theorem State.poke_dt (a : Nat) (b : Byte) : (s.poke a b).dt = s.dt := rfl
@[simp] theorem State.poke_st (a : Nat) (b : Byte) : (s.poke a b).st = s.st := rfl
@[simp] theorem State.poke_fb (a : Nat) (b : Byte) : (s.poke a b).fb = s.fb := rfl
@[simp] theorem State.poke_mem (a : Nat) (b : Byte) : (s.poke a b).mem = memoryWrite s.config s.mem a b := rfl
@[simp] theorem State.poke_halted (a : Nat) (b : Byte) : (s.poke a b).halted = s.halted := rfl
@[simp] theorem State.poke_drawFlag (a : Nat) (b : Byte) : (s.poke a b).drawFlag = s.drawFlag := rfl
@[simp] theorem State.poke_status (a : Nat) (b : Byte) : (s.poke a b).status = s.status := rfl
@[simp] theorem State.poke_events (a : Nat) (b : Byte) : (s.poke a b).events = s.events := rfl
@[simp] theorem State.poke_history (a : Nat) (b : Byte) : (s.poke a b).history = s.history := rfl
@[simp] theorem State.poke_inputs (a : Nat) (b : Byte) : (s.poke a b).inputs = s.inputs := rfl
@[simp] theorem State.poke_cycle (a : Nat) (b : Byte) : (s.poke a b).cycle = s.cycle := rfl
@[simp] theorem State.poke_config (a : Nat) (b : Byte) : (s.poke a b).config = s.config := rfl

/-! ### raiseRedraw -/

@[simp] theorem State.raiseRedraw_v : (s.raiseRedraw).v = s.v := rfl
@[simp] theorem State.raiseRedraw_i : (s.raiseRedraw).i = s.i := rfl
@[simp] theorem State.raiseRedraw_pc : (s.raiseRedraw).pc = s.pc := rfl
@[simp] theorem State.raiseRedraw_sp : (s.raiseRedraw).sp = s.sp := rfl
@[simp] theorem State.raiseRedraw_stack : (s.raiseRedraw).stack = s.stack := rfl
@[simp] theorem State.raiseRedraw_dt : (s.raiseRedraw).dt = s.dt := rfl
@[simp] theorem State.raiseRedraw_st : (s.raiseRedraw).st = s.st := rfl
@[simp] theorem State.raiseRedraw_fb : (s.raiseRedraw).fb = s.fb := rfl
@[simp] theorem State.raiseRedraw_mem : (s.raiseRedraw).mem = s.mem := rfl
@[simp] theorem State.raiseRedraw_halted : (s.raiseRedraw).halted = s.halted := rfl
@[simp] theorem State.raiseRedraw_drawFlag : (s.raiseRedraw).drawFlag = true := rfl
@[simp] theorem State.raiseRedraw_status : (s.raiseRedraw).status = s.status := rfl
@[simp] theorem State.raiseRedraw_events : (s.raiseRedraw).events = s.events ++ [.redraw] := rfl
@[simp] theorem State.raiseRedraw_history : (s.raiseRedraw).history = s.history := rfl
@[simp] theorem State.raiseRedraw_inputs : (s.raiseRedraw).inputs = s.inputs := rfl
@[simp] theorem State.raiseRedraw_cycle : (s.raiseRedraw).cycle = s.cycle := rfl
@[simp] theorem State.raiseRedraw_config : (s.raiseRedraw).config = s.config := rfl

/-! ### ticks -/

@[simp] theorem State.ticks_v (n : Nat) : (s.ticks n).v = s.v := rfl
@[simp] theorem State.ticks_i (n : Nat) : (s.ticks n).i = s.i := rfl
@[simp] theorem State.ticks_pc (n : Nat) : (s.ticks n).pc = s.pc := rfl
@[simp] theorem State.ticks_sp (n : Nat) : (s.ticks n).sp = s.sp := rfl
@[simp] theorem State.ticks_stack (n : Nat) : (s.ticks n).stack = s.stack := rfl
@[simp] theorem State.ticks_dt (n : Nat) : (s.ticks n).dt = countdown n s.dt := rfl
@[simp] theorem State.ticks_st (n : Nat) : (s.ticks n).st = countdown n s.st := rfl
@[simp] theorem State.ticks_fb (n : Nat) : (s.ticks n).fb = s.fb := rfl
@[simp] theorem State.ticks_mem (n : Nat) : (s.ticks n).mem = s.mem := rfl
@[simp] theorem State.ticks_halted (n : Nat) : (s.ticks n).halted = s.halted := rfl
@[simp] theorem State.ticks_drawFlag (n : Nat) : (s.ticks n).drawFlag = s.drawFlag := rfl
@[simp] theorem State.ticks_status (n : Nat) : (s.ticks n).status = s.status := rfl
@[simp] theorem State.ticks_events (n : Nat) : (s.ticks n).events = s.events := rfl
@[simp] theorem State.ticks_history (n : Nat) : (s.ticks n).history = s.history := rfl
@[simp] theorem State.ticks_inputs (n : Nat) : (s.ticks n).inputs = s.inputs := rfl
@[simp] theorem State.ticks_cycle (n : Nat) : (s.ticks n).cycle = s.cycle := rfl
@[simp] theorem State.ticks_config (n : Nat) : (s.ticks n).config = s.config := rfl

/-! ### nextInputs -/

@[simp] theorem State.nextInputs_v : (s.nextInputs).v = s.v := rfl
@[simp] theorem State.nextInputs_i : (s.nextInputs).i = s.i := rfl
@[simp] theorem State.nextInputs_pc : (s.nextInputs).pc = s.pc := rfl
@[simp] theorem State.nextInputs_sp : (s.nextInputs).sp = s.sp := rfl
@[simp] theorem State.nextInputs_stack : (s.nextInputs).stack = s.stack := rfl
@[simp] theorem State.nextInputs_dt : (s.nextInputs).dt = s.dt := rfl
@[simp] theorem State.nextInputs_st : (s.nextInputs).st = s.st := rfl
@[simp] theorem State.nextInputs_fb : (s.nextInputs).fb = s.fb := rfl
@[simp] theorem State.nextInputs_mem : (s.nextInputs).mem = s.mem := rfl
@[simp] theorem State.nextInputs_halted : (s.nextInputs).halted = s.halted := rfl
@[simp] theorem State.nextInputs_drawFlag : (s.nextInputs).drawFlag = s.drawFlag := rfl
@[simp] theorem State.nextInputs_status : (s.nextInputs).status = s.status := rfl
@[simp] theorem State.nextInputs_events : (s.nextInputs).events = s.events := rfl
@[simp] theorem State.nextInputs_history : (s.nextInputs).history = s.history := rfl
@[simp] theorem State.nextInputs_inputs : (s.nextInputs).inputs = s.inputs.tail := rfl
@[simp] theorem State.nextInputs_cycle : (s.nextInputs).cycle = s.cycle + 1 := rfl
@[simp] theorem State.nextInputs_config : (s.nextInputs).config = s.config := rfl

/-! ### raiseFatal -/

@[simp] theorem State.raiseFatal_v (c : FatalCode) : (s.raiseFatal c).v = s.v := rfl
@[simp] theorem State.raiseFatal_i (c : FatalCode) : (s.raiseFatal c).i = s.i := rfl
@[simp] theorem State.raiseFatal_pc (c : FatalCode) : (s.raiseFatal c).pc = s.pc := rfl
@[simp] theorem State.raiseFatal_sp (c : FatalCode) : (s.raiseFatal c).sp = s.sp := rfl
@[simp] theorem State.raiseFatal_stack (c : FatalCode) : (s.raiseFatal c).stack = s.stack := rfl
@[simp] theorem State.raiseFatal_dt (c : FatalCode) : (s.raiseFatal c).dt = s.dt := rfl
@[simp] theorem State.raiseFatal_st (c : FatalCode) : (s.raiseFatal c).st = s.st := rfl
@[simp] theorem State.raiseFatal_fb (c : FatalCode) : (s.raiseFatal c).fb = s.fb := rfl
@[simp] theorem State.raiseFatal_mem (c : FatalCode) : (s.raiseFatal c).mem = s.mem := rfl
@[simp] theorem State.raiseFatal_halted (c : FatalCode) : (s.raiseFatal c).halted = true := rfl
@[simp] theorem State.raiseFatal_drawFlag (c : FatalCode) : (s.raiseFatal c).drawFlag = false := rfl
@[simp] theorem State.raiseFatal_status (c : FatalCode) : (s.raiseFatal c).status = .halted := rfl
@[simp] theorem State.raiseFatal_events (c : FatalCode) : (s.raiseFatal c).events = s.events ++ [.fatal c s.pc] := rfl
@[simp] theorem State.raiseFatal_history (c : FatalCode) : (s.raiseFatal c).history = s.history := rfl
@[simp] theorem State.raiseFatal_inputs (c : FatalCode) : (s.raiseFatal c).inputs = s.inputs := rfl
@[simp] theorem State.raiseFatal_cycle (c : FatalCode) : (s.raiseFatal c).cycle = s.cycle := rfl
@[simp] theorem State.raiseFatal_config (c : FatalCode) : (s.raiseFatal c).config = s.config := rfl

/-! ### refuseStep -/

@[simp] theorem State.refuseStep_v : (s.refuseStep).v = s.v := rfl
@[simp] theorem State.refuseStep_i : (s.refuseStep).i = s.i := rfl
@[simp] theorem State.refuseStep_pc : (s.refuseStep).pc = s.pc := rfl
@[simp] theorem State.refuseStep_sp : (s.refuseStep).sp = s.sp := rfl
@[simp] theorem State.refuseStep_stack : (s.refuseStep).stack = s.stack := rfl
@[simp] theorem State.refuseStep_dt : (s.refuseStep).dt = s.dt := rfl
@[simp] theorem State.refuseStep_st : (s.refuseStep).st = s.st := rfl
@[simp] theorem State.refuseStep_fb : (s.refuseStep).fb = s.fb := rfl
@[simp] theorem State.refuseStep_mem : (s.refuseStep).mem = s.mem := rfl
@[simp] theorem State.refuseStep_halted : (s.refuseStep).halted = s.halted := rfl
@[simp] theorem State.refuseStep_drawFlag : (s.refuseStep).drawFlag = s.drawFlag := rfl
@[simp] theorem State.refuseStep_status : (s.refuseStep).status = .halted := rfl
@[simp] theorem State.refuseStep_events : (s.refuseStep).events = [] := rfl
@[simp] theorem State.refuseStep_history : (s.refuseStep).history = s.history ++ s.events := rfl
@[simp] theorem State.refuseStep_inputs : (s.refuseStep).inputs = s.inputs := rfl
@[simp] theorem State.refuseStep_cycle : (s.refuseStep).cycle = s.cycle := rfl
@[simp] theorem State.refuseStep_config : (s.refuseStep).config = s.config := rfl

/-! ### beginStep -/

@[simp] theorem State.beginStep_v : (s.beginStep).v = s.v := rfl
@[simp] theorem State.beginStep_i : (s.beginStep).i = s.i := rfl
@[simp] theorem State.beginStep_pc : (s.beginStep).pc = s.pc := rfl
@[simp] theorem State.beginStep_sp : (s.beginStep).sp = s.sp := rfl
@[simp] theorem State.beginStep_stack : (s.beginStep).stack = s.stack := rfl
@[simp] theorem State.beginStep_dt : (s.beginStep).dt = s.dt := rfl
@[simp] theorem State.beginStep_st : (s.beginStep).st = s.st := rfl
@[simp] theorem State.beginStep_fb : (s.beginStep).fb = s.fb := rfl
@[simp] theorem State.beginStep_mem : (s.beginStep).mem = s.mem := rfl
@[simp] theorem State.beginStep_halted : (s.beginStep).halted = s.halted := rfl
@[simp] theorem State.beginStep_drawFlag : (s.beginStep).drawFlag = false := rfl
@[simp] theorem State.beginStep_status : (s.beginStep).status = .ok := rfl
@[simp] theorem State.beginStep_events : (s.beginStep).events = [] := rfl
@[simp] theorem State.beginStep_history : (s.beginStep).history = s.history ++ s.events := rfl
@[simp] theorem State.beginStep_inputs : (s.beginStep).inputs = s.inputs := rfl
@[simp] theorem State.beginStep_cycle : (s.beginStep).cycle = s.cycle := rfl
@[simp] theorem State.beginStep_config : (s.beginStep).config = s.config := rfl

/-! ### reportBounds -/

@[simp] theorem State.reportBounds_v (a : Nat) (kind : AccessKind) : (s.reportBounds a kind).v = s.v := by
  unfold State.reportBounds; split <;> rfl
@[simp] theorem State.reportBounds_i (a : Nat) (kind : AccessKind) : (s.reportBounds a kind).i = s.i := by
  unfold State.reportBounds; split <;> rfl
@[simp] theorem State.reportBounds_pc (a : Nat) (kind : AccessKind) : (s.reportBounds a kind).pc = s.pc := by
  unfold State.reportBounds; split <;> rfl
@[simp] theorem State.reportBounds_sp (a : Nat) (kind : AccessKind) : (s.reportBounds a kind).sp = s.sp := by
  unfold State.reportBounds; split <;> rfl
@[simp] theorem State.reportBounds_stack (a : Nat) (kind : AccessKind) : (s.reportBounds a kind).stack = s.stack := by
  unfold State.reportBounds; split <;> rfl
@[simp] theorem State.reportBounds_dt (a : Nat) (kind : AccessKind) : (s.reportBounds a kind).dt = s.dt := by
  unfold State.reportBounds; split <;> rfl
@[simp] theorem State.reportBounds_st (a : Nat) (kind : AccessKind) : (s.reportBounds a kind).st = s.st := by
  unfold State.reportBounds; split <;> rfl
@[simp] theorem State.reportBounds_fb (a : Nat) (kind : AccessKind) : (s.reportBounds a kind).fb = s.fb := by
  unfold State.reportBounds; split <;> rfl
@[simp] theorem State.reportBounds_mem (a : Nat) (kind : AccessKind) : (s.reportBounds a kind).mem = s.mem := by
  unfold State.reportBounds; split <;> rfl
@[simp] theorem State.reportBounds_halted (a : Nat) (kind : AccessKind) : (s.reportBounds a kind).halted = s.halted := by
  unfold State.reportBounds; split <;> rfl
@[simp] theorem State.reportBounds_drawFlag (a : Nat) (kind : AccessKind) : (s.reportBounds a kind).drawFlag = s.drawFlag := by
  unfold State.reportBounds; split <;> rfl
@[simp] theorem State.reportBounds_status (a : Nat) (kind : AccessKind) : (s.reportBounds a kind).status = s.status := by
  unfold State.reportBounds; split <;> rfl
@[simp] theorem State.reportBounds_history (a : Nat) (kind : AccessKind) : (s.reportBounds a kind).history = s.history := by
  unfold State.reportBounds; split <;> rfl
@[simp] theorem State.reportBounds_inputs (a : Nat) (kind : AccessKind) : (s.reportBounds a kind).inputs = s.inputs := by
  unfold State.reportBounds; split <;> rfl
@[simp] theorem State.reportBounds_cycle (a : Nat) (kind : AccessKind) : (s.reportBounds a kind).cycle = s.cycle := by
  unfold State.reportBounds; split <;> rfl
@[simp] theorem State.reportBounds_config (a : Nat) (kind : AccessKind) : (s.reportBounds a kind).config = s.config := by
  unfold State.reportBounds; split <;> rfl

/-! ### reportRange -/

@[simp] theorem State.reportRange_v (b : Byte) (what : OperandKind) : (s.reportRange b what).v = s.v := by
  unfold State.reportRange; split <;> rfl
@[simp] theorem State.reportRange_i (b : Byte) (what : OperandKind) : (s.reportRange b what).i = s.i := by
  unfold State.reportRange; split <;> rfl
@[simp] theorem State.reportRange_pc (b : Byte) (what : OperandKind) : (s.reportRange b what).pc = s.pc := by
  unfold State.reportRange; split <;> rfl
@[simp] theorem State.reportRange_sp (b : Byte) (what : OperandKind) : (s.reportRange b what).sp = s.sp := by
  unfold State.reportRange; split <;> rfl
@[simp] theorem State.reportRange_stack (b : Byte) (what : OperandKind) : (s.reportRange b what).stack = s.stack := by
  unfold State.reportRange; split <;> rfl
@[simp] theorem State.reportRange_dt (b : Byte) (what : OperandKind) : (s.reportRange b what).dt = s.dt := by
  unfold State.reportRange; split <;> rfl
@[simp] theorem State.reportRange_st (b : Byte) (what : OperandKind) : (s.reportRange b what).st = s.st := by
  unfold State.reportRange; split <;> rfl
@[simp] theorem State.reportRange_fb (b : Byte) (what : OperandKind) : (s.reportRange b what).fb = s.fb := by
  unfold State.reportRange; split <;> rfl
@[simp] theorem State.reportRange_mem (b : Byte) (what : OperandKind) : (s.reportRange b what).mem = s.mem := by
  unfold State.reportRange; split <;> rfl
@[simp] theorem State.reportRange_halted (b : Byte) (what : OperandKind) : (s.reportRange b what).halted = s.halted := by
  unfold State.reportRange; split <;> rfl
@[simp] theorem State.reportRange_drawFlag (b : Byte) (what : OperandKind) : (s.reportRange b what).drawFlag = s.drawFlag := by
  unfold State.reportRange; split <;> rfl
@[simp] theorem State.reportRange_status (b : Byte) (what : OperandKind) : (s.reportRange b what).status = s.status := by
  unfold State.reportRange; split <;> rfl
@[simp] theorem State.reportRange_history (b : Byte) (what : OperandKind) : (s.reportRange b what).history = s.history := by
  unfold State.reportRange; split <;> rfl
@[simp] theorem State.reportRange_inputs (b : Byte) (what : OperandKind) : (s.reportRange b what).inputs = s.inputs := by
  unfold State.reportRange; split <;> rfl
@[simp] theorem State.reportRange_cycle (b : Byte) (what : OperandKind) : (s.reportRange b what).cycle = s.cycle := by
  unfold State.reportRange; split <;> rfl
@[simp] theorem State.reportRange_config (b : Byte) (what : OperandKind) : (s.reportRange b what).config = s.config := by
  unfold State.reportRange; split <;> rfl

/-! ### skipIf -/

@[simp] theorem State.skipIf_v (c : Bool) : (s.skipIf c).v = s.v := by
  unfold State.skipIf; split <;> rfl
@[simp] theorem State.skipIf_i (c : Bool) : (s.skipIf c).i = s.i := by
  unfold State.skipIf; split <;> rfl
@[simp] theorem State.skipIf_sp (c : Bool) : (s.skipIf c).sp = s.sp := by
  unfold State.skipIf; split <;> rfl
@[simp] theorem State.skipIf_stack (c : Bool) : (s.skipIf c).stack = s.stack := by
  unfold State.skipIf; split <;> rfl
@[simp] theorem State.skipIf_dt (c : Bool) : (s.skipIf c).dt = s.dt := by
  unfold State.skipIf; split <;> rfl
@[simp] theorem State.skipIf_st (c : Bool) : (s.skipIf c).st = s.st := by
  unfold State.skipIf; split <;> rfl
@[simp] theorem State.skipIf_fb (c : Bool) : (s.skipIf c).fb = s.fb := by
  unfold State.skipIf; split <;> rfl
@[simp] theorem State.skipIf_mem (c : Bool) : (s.skipIf c).mem = s.mem := by
  unfold State.skipIf; split <;> rfl
@[simp] theorem State.skipIf_halted (c : Bool) : (s.skipIf c).halted = s.halted := by
  unfold State.skipIf; split <;> rfl
@[simp] theorem State.skipIf_drawFlag (c : Bool) : (s.skipIf c).drawFlag = s.drawFlag := by
  unfold State.skipIf; split <;> rfl
@[simp] theorem State.skipIf_status (c : Bool) : (s.skipIf c).status = s.status := by
  unfold State.skipIf; split <;> rfl
@[simp] theorem State.skipIf_events (c : Bool) : (s.skipIf c).events = s.events := by
  unfold State.skipIf; split <;> rfl
@[simp] theorem State.skipIf_history (c : Bool) : (s.skipIf c).history = s.history := by
  unfold State.skipIf; split <;> rfl
@[simp] theorem State.skipIf_inputs (c : Bool) : (s.skipIf c).inputs = s.inputs := by
  unfold State.skipIf; split <;> rfl
@[simp] theorem State.skipIf_cycle (c : Bool) : (s.skipIf c).cycle = s.cycle := by
  unfold State.skipIf; split <;> rfl
@[simp] theorem State.skipIf_config (c : Bool) : (s.skipIf c).config = s.config := by
  unfold State.skipIf; split <;> rfl

/-! ### tick -/

@[simp] theorem State.tick_v : (s.tick).v = s.v := rfl
@[simp] theorem State.tick_i : (s.tick).i = s.i := rfl
@[simp] theorem State.tick_pc : (s.tick).pc = s.pc := rfl
@[simp] theorem State.tick_sp : (s.tick).sp = s.sp := rfl
@[simp] theorem State.tick_stack : (s.tick).stack = s.stack := rfl
@[simp] theorem State.tick_fb : (s.tick).fb = s.fb := rfl
@[simp] theorem State.tick_mem : (s.tick).mem = s.mem := rfl
@[simp] theorem State.tick_halted : (s.tick).halted = s.halted := rfl
@[simp] theorem State.tick_drawFlag : (s.tick).drawFlag = s.drawFlag := rfl
@[simp] theorem State.tick_status : (s.tick).status = s.status := rfl
@[simp] theorem State.tick_events : (s.tick).events = s.events := rfl
@[simp] theorem State.tick_history : (s.tick).history = s.history := rfl
@[simp] theorem State.tick_inputs : (s.tick).inputs = s.inputs := rfl
@[simp] theorem State.tick_cycle : (s.tick).cycle = s.cycle := rfl
@[simp] theorem State.tick_config : (s.tick).config = s.config := rfl

/-! ### endStep -/

@[simp] theorem State.endStep_v : (s.endStep).v = s.v := by
  unfold State.endStep; split <;> rfl
@[simp] theorem State.endStep_i : (s.endStep).i = s.i := by
  unfold State.endStep; split <;> rfl
@[simp] theorem State.endStep_pc : (s.endStep).pc = s.pc := by
  unfold State.endStep; split <;> rfl
@[simp] theorem State.endStep_sp : (s.endStep).sp = s.sp := by
  unfold State.endStep; split <;> rfl
@[simp] theorem State.endStep_stack : (s.endStep).stack = s.stack := by
  unfold State.endStep; split <;> rfl
@[simp] theorem State.endStep_fb : (s.endStep).fb = s.fb := by
  unfold State.endStep; split <;> rfl
@[simp] theorem State.endStep_mem : (s.endStep).mem = s.mem := by
  unfold State.endStep; split <;> rfl
@[simp] theorem State.endStep_halted : (s.endStep).halted = s.halted := by
  unfold State.endStep; split <;> rfl
@[simp] theorem State.endStep_drawFlag : (s.endStep).drawFlag = s.drawFlag := by
  unfold State.endStep; split <;> rfl
@[simp] theorem State.endStep_status : (s.endStep).status = s.status := by
  unfold State.endStep; split <;> rfl
@[simp] theorem State.endStep_events : (s.endStep).events = s.events := by
  unfold State.endStep; split <;> rfl
@[simp] theorem State.endStep_history : (s.endStep).history = s.history := by
  unfold State.endStep; split <;> rfl
@[simp] theorem State.endStep_inputs : (s.endStep).inputs = s.inputs := by
  unfold State.endStep; split <;> rfl
@[simp] theorem State.endStep_cycle : (s.endStep).cycle = s.cycle := by
  unfold State.endStep; split <;> rfl
@[simp] theorem State.endStep_config : (s.endStep).config = s.config := by
  unfold State.endStep; split <;> rfl

end Sys2Proof.Machine
end

