-- ==== Sys2Proof/Laws/Access.lean ====
section
/-! SUPPORT. What the named operations leave of a register, a memory byte, a framebuffer cell, a stack slot, the inputs of the
step and a data address, where they do not write it. -/

namespace Sys2Proof.Machine

variable (s : State)

/-! ### reg -/

@[simp] theorem State.reg_setIndex (a : Word) (r : Nibble) : (s.setIndex a).reg r = s.reg r := rfl
@[simp] theorem State.reg_setPc (a : Word) (r : Nibble) : (s.setPc a).reg r = s.reg r := rfl
@[simp] theorem State.reg_advance (r : Nibble) : s.advance.reg r = s.reg r := rfl
@[simp] theorem State.reg_skipIf (c : Bool) (r : Nibble) : (s.skipIf c).reg r = s.reg r := by
  unfold State.skipIf; split <;> rfl
@[simp] theorem State.reg_setDelay (b : Byte) (r : Nibble) : (s.setDelay b).reg r = s.reg r := rfl
@[simp] theorem State.reg_setSound (b : Byte) (r : Nibble) : (s.setSound b).reg r = s.reg r := rfl
@[simp] theorem State.reg_push (a : Word) (r : Nibble) : (s.push a).reg r = s.reg r := rfl
@[simp] theorem State.reg_pop (r : Nibble) : s.pop.reg r = s.reg r := rfl
@[simp] theorem State.reg_toggleCell (k : Nat) (r : Nibble) : (s.toggleCell k).reg r = s.reg r := rfl
@[simp] theorem State.reg_clearCells (r : Nibble) : s.clearCells.reg r = s.reg r := rfl
@[simp] theorem State.reg_emit (e : Event) (r : Nibble) : (s.emit e).reg r = s.reg r := rfl
@[simp] theorem State.reg_newEvents (r : Nibble) : s.newEvents.reg r = s.reg r := rfl
@[simp] theorem State.reg_poke (a : Nat) (b : Byte) (r : Nibble) : (s.poke a b).reg r = s.reg r := rfl
@[simp] theorem State.reg_raiseRedraw (r : Nibble) : s.raiseRedraw.reg r = s.reg r := rfl
@[simp] theorem State.reg_ticks (n : Nat) (r : Nibble) : (s.ticks n).reg r = s.reg r := rfl
@[simp] theorem State.reg_nextInputs (r : Nibble) : s.nextInputs.reg r = s.reg r := rfl
@[simp] theorem State.reg_raiseFatal (c : FatalCode) (r : Nibble) : (s.raiseFatal c).reg r = s.reg r := rfl
@[simp] theorem State.reg_refuseStep (r : Nibble) : s.refuseStep.reg r = s.reg r := rfl
@[simp] theorem State.reg_beginStep (r : Nibble) : s.beginStep.reg r = s.reg r := rfl
@[simp] theorem State.reg_reportBounds (a : Nat) (kind : AccessKind) (r : Nibble) : (s.reportBounds a kind).reg r = s.reg r := by
  unfold State.reportBounds; split <;> rfl
@[simp] theorem State.reg_reportRange (b : Byte) (what : OperandKind) (r : Nibble) : (s.reportRange b what).reg r = s.reg r := by
  unfold State.reportRange; split <;> rfl
@[simp] theorem State.reg_tick (r : Nibble) : s.tick.reg r = s.reg r := rfl
@[simp] theorem State.reg_endStep (r : Nibble) : s.endStep.reg r = s.reg r := by
  unfold State.endStep; split <;> rfl

/-! ### peek -/

@[simp] theorem State.peek_setReg (x : Nibble) (b : Byte) (z : Nat) : (s.setReg x b).peek z = s.peek z := rfl
@[simp] theorem State.peek_setIndex (a : Word) (z : Nat) : (s.setIndex a).peek z = s.peek z := rfl
@[simp] theorem State.peek_setPc (a : Word) (z : Nat) : (s.setPc a).peek z = s.peek z := rfl
@[simp] theorem State.peek_advance (z : Nat) : s.advance.peek z = s.peek z := rfl
@[simp] theorem State.peek_skipIf (c : Bool) (z : Nat) : (s.skipIf c).peek z = s.peek z := by
  unfold State.skipIf; split <;> rfl
@[simp] theorem State.peek_setDelay (b : Byte) (z : Nat) : (s.setDelay b).peek z = s.peek z := rfl
@[simp] theorem State.peek_setSound (b : Byte) (z : Nat) : (s.setSound b).peek z = s.peek z := rfl
@[simp] theorem State.peek_push (a : Word) (z : Nat) : (s.push a).peek z = s.peek z := rfl
@[simp] theorem State.peek_pop (z : Nat) : s.pop.peek z = s.peek z := rfl
@[simp] theorem State.peek_toggleCell (k : Nat) (z : Nat) : (s.toggleCell k).peek z = s.peek z := rfl
@[simp] theorem State.peek_clearCells (z : Nat) : s.clearCells.peek z = s.peek z := rfl
@[simp] theorem State.peek_emit (e : Event) (z : Nat) : (s.emit e).peek z = s.peek z := rfl
@[simp] theorem State.peek_newEvents (z : Nat) : s.newEvents.peek z = s.peek z := rfl
@[simp] theorem State.peek_raiseRedraw (z : Nat) : s.raiseRedraw.peek z = s.peek z := rfl
@[simp] theorem State.peek_ticks (n : Nat) (z : Nat) : (s.ticks n).peek z = s.peek z := rfl
@[simp] theorem State.peek_nextInputs (z : Nat) : s.nextInputs.peek z = s.peek z := rfl
@[simp] theorem State.peek_raiseFatal (c : FatalCode) (z : Nat) : (s.raiseFatal c).peek z = s.peek z := rfl
@[simp] theorem State.peek_refuseStep (z : Nat) : s.refuseStep.peek z = s.peek z := rfl
@[simp] theorem State.peek_beginStep (z : Nat) : s.beginStep.peek z = s.peek z := rfl
@[simp] theorem State.peek_reportBounds (a : Nat) (kind : AccessKind) (z : Nat) : (s.reportBounds a kind).peek z = s.peek z := by
  unfold State.reportBounds; split <;> rfl
@[simp] theorem State.peek_reportRange (b : Byte) (what : OperandKind) (z : Nat) : (s.reportRange b what).peek z = s.peek z := by
  unfold State.reportRange; split <;> rfl
@[simp] theorem State.peek_tick (z : Nat) : s.tick.peek z = s.peek z := rfl
@[simp] theorem State.peek_endStep (z : Nat) : s.endStep.peek z = s.peek z := by
  unfold State.endStep; split <;> rfl

/-! ### cell -/

@[simp] theorem State.cell_setReg (x : Nibble) (b : Byte) (z : Nat) : (s.setReg x b).cell z = s.cell z := rfl
@[simp] theorem State.cell_setIndex (a : Word) (z : Nat) : (s.setIndex a).cell z = s.cell z := rfl
@[simp] theorem State.cell_setPc (a : Word) (z : Nat) : (s.setPc a).cell z = s.cell z := rfl
@[simp] theorem State.cell_advance (z : Nat) : s.advance.cell z = s.cell z := rfl
@[simp] theorem State.cell_skipIf (c : Bool) (z : Nat) : (s.skipIf c).cell z = s.cell z := by
  unfold State.skipIf; split <;> rfl
@[simp] theorem State.cell_setDelay (b : Byte) (z : Nat) : (s.setDelay b).cell z = s.cell z := rfl
@[simp] theorem State.cell_setSound (b : Byte) (z : Nat) : (s.setSound b).cell z = s.cell z := rfl
@[simp] theorem State.cell_push (a : Word) (z : Nat) : (s.push a).cell z = s.cell z := rfl
@[simp] theorem State.cell_pop (z : Nat) : s.pop.cell z = s.cell z := rfl
@[simp] theorem State.cell_emit (e : Event) (z : Nat) : (s.emit e).cell z = s.cell z := rfl
@[simp] theorem State.cell_newEvents (z : Nat) : s.newEvents.cell z = s.cell z := rfl
@[simp] theorem State.cell_poke (a : Nat) (b : Byte) (z : Nat) : (s.poke a b).cell z = s.cell z := rfl
@[simp] theorem State.cell_raiseRedraw (z : Nat) : s.raiseRedraw.cell z = s.cell z := rfl
@[simp] theorem State.cell_ticks (n : Nat) (z : Nat) : (s.ticks n).cell z = s.cell z := rfl
@[simp] theorem State.cell_nextInputs (z : Nat) : s.nextInputs.cell z = s.cell z := rfl
@[simp] theorem State.cell_raiseFatal (c : FatalCode) (z : Nat) : (s.raiseFatal c).cell z = s.cell z := rfl
@[simp] theorem State.cell_refuseStep (z : Nat) : s.refuseStep.cell z = s.cell z := rfl
@[simp] theorem State.cell_beginStep (z : Nat) : s.beginStep.cell z = s.cell z := rfl
@[simp] theorem State.cell_reportBounds (a : Nat) (kind : AccessKind) (z : Nat) : (s.reportBounds a kind).cell z = s.cell z := by
  unfold State.reportBounds; split <;> rfl
@[simp] theorem State.cell_reportRange (b : Byte) (what : OperandKind) (z : Nat) : (s.reportRange b what).cell z = s.cell z := by
  unfold State.reportRange; split <;> rfl
@[simp] theorem State.cell_tick (z : Nat) : s.tick.cell z = s.cell z := rfl
@[simp] theorem State.cell_endStep (z : Nat) : s.endStep.cell z = s.cell z := by
  unfold State.endStep; split <;> rfl

/-! ### slot -/

@[simp] theorem State.slot_setReg (x : Nibble) (b : Byte) (z : Nat) : (s.setReg x b).slot z = s.slot z := rfl
@[simp] theorem State.slot_setIndex (a : Word) (z : Nat) : (s.setIndex a).slot z = s.slot z := rfl
@[simp] theorem State.slot_setPc (a : Word) (z : Nat) : (s.setPc a).slot z = s.slot z := rfl
@[simp] theorem State.slot_advance (z : Nat) : s.advance.slot z = s.slot z := rfl
@[simp] theorem State.slot_skipIf (c : Bool) (z : Nat) : (s.skipIf c).slot z = s.slot z := by
  unfold State.skipIf; split <;> rfl
@[simp] theorem State.slot_setDelay (b : Byte) (z : Nat) : (s.setDelay b).slot z = s.slot z := rfl
@[simp] theorem State.slot_setSound (b : Byte) (z : Nat) : (s.setSound b).slot z = s.slot z := rfl
@[simp] theorem State.slot_pop (z : Nat) : s.pop.slot z = s.slot z := rfl
@[simp] theorem State.slot_toggleCell (k : Nat) (z : Nat) : (s.toggleCell k).slot z = s.slot z := rfl
@[simp] theorem State.slot_clearCells (z : Nat) : s.clearCells.slot z = s.slot z := rfl
@[simp] theorem State.slot_emit (e : Event) (z : Nat) : (s.emit e).slot z = s.slot z := rfl
@[simp] theorem State.slot_newEvents (z : Nat) : s.newEvents.slot z = s.slot z := rfl
@[simp] theorem State.slot_poke (a : Nat) (b : Byte) (z : Nat) : (s.poke a b).slot z = s.slot z := rfl
@[simp] theorem State.slot_raiseRedraw (z : Nat) : s.raiseRedraw.slot z = s.slot z := rfl
@[simp] theorem State.slot_ticks (n : Nat) (z : Nat) : (s.ticks n).slot z = s.slot z := rfl
@[simp] theorem State.slot_nextInputs (z : Nat) : s.nextInputs.slot z = s.slot z := rfl
@[simp] theorem State.slot_raiseFatal (c : FatalCode) (z : Nat) : (s.raiseFatal c).slot z = s.slot z := rfl
@[simp] theorem State.slot_refuseStep (z : Nat) : s.refuseStep.slot z = s.slot z := rfl
@[simp] theorem State.slot_beginStep (z : Nat) : s.beginStep.slot z = s.slot z := rfl
@[simp] theorem State.slot_reportBounds (a : Nat) (kind : AccessKind) (z : Nat) : (s.reportBounds a kind).slot z = s.slot z := by
  unfold State.reportBounds; split <;> rfl
@[simp] theorem State.slot_reportRange (b : Byte) (what : OperandKind) (z : Nat) : (s.reportRange b what).slot z = s.slot z := by
  unfold State.reportRange; split <;> rfl
@[simp] theorem State.slot_tick (z : Nat) : s.tick.slot z = s.slot z := rfl
@[simp] theorem State.slot_endStep (z : Nat) : s.endStep.slot z = s.slot z := by
  unfold State.endStep; split <;> rfl

/-! ### env -/

@[simp] theorem State.env_setReg (x : Nibble) (b : Byte) : (s.setReg x b).env = s.env := rfl
@[simp] theorem State.env_setIndex (a : Word) : (s.setIndex a).env = s.env := rfl
@[simp] theorem State.env_setPc (a : Word) : (s.setPc a).env = s.env := rfl
@[simp] theorem State.env_advance : s.advance.env = s.env := rfl
@[simp] theorem State.env_skipIf (c : Bool) : (s.skipIf c).env = s.env := by
  unfold State.skipIf; split <;> rfl
@[simp] theorem State.env_setDelay (b : Byte) : (s.setDelay b).env = s.env := rfl
@[simp] theorem State.env_setSound (b : Byte) : (s.setSound b).env = s.env := rfl
@[simp] theorem State.env_push (a : Word) : (s.push a).env = s.env := rfl
@[simp] theorem State.env_pop : s.pop.env = s.env := rfl
@[simp] theorem State.env_toggleCell (k : Nat) : (s.toggleCell k).env = s.env := rfl
@[simp] theorem State.env_clearCells : s.clearCells.env = s.env := rfl
@[simp] theorem State.env_emit (e : Event) : (s.emit e).env = s.env := rfl
@[simp] theorem State.env_newEvents : s.newEvents.env = s.env := rfl
@[simp] theorem State.env_poke (a : Nat) (b : Byte) : (s.poke a b).env = s.env := rfl
@[simp] theorem State.env_raiseRedraw : s.raiseRedraw.env = s.env := rfl
@[simp] theorem State.env_ticks (n : Nat) : (s.ticks n).env = s.env := rfl
@[simp] theorem State.env_raiseFatal (c : FatalCode) : (s.raiseFatal c).env = s.env := rfl
@[simp] theorem State.env_refuseStep : s.refuseStep.env = s.env := rfl
@[simp] theorem State.env_beginStep : s.beginStep.env = s.env := rfl
@[simp] theorem State.env_reportBounds (a : Nat) (kind : AccessKind) : (s.reportBounds a kind).env = s.env := by
  unfold State.reportBounds; split <;> rfl
@[simp] theorem State.env_reportRange (b : Byte) (what : OperandKind) : (s.reportRange b what).env = s.env := by
  unfold State.reportRange; split <;> rfl
@[simp] theorem State.env_tick : s.tick.env = s.env := rfl
@[simp] theorem State.env_endStep : s.endStep.env = s.env := by
  unfold State.endStep; split <;> rfl

/-! ### dataAddress -/

@[simp] theorem State.dataAddress_setReg (x : Nibble) (b : Byte) (z : Nat) : (s.setReg x b).dataAddress z = s.dataAddress z := rfl
@[simp] theorem State.dataAddress_setPc (a : Word) (z : Nat) : (s.setPc a).dataAddress z = s.dataAddress z := rfl
@[simp] theorem State.dataAddress_advance (z : Nat) : s.advance.dataAddress z = s.dataAddress z := rfl
@[simp] theorem State.dataAddress_skipIf (c : Bool) (z : Nat) : (s.skipIf c).dataAddress z = s.dataAddress z := by
  unfold State.skipIf; split <;> rfl
@[simp] theorem State.dataAddress_setDelay (b : Byte) (z : Nat) : (s.setDelay b).dataAddress z = s.dataAddress z := rfl
@[simp] theorem State.dataAddress_setSound (b : Byte) (z : Nat) : (s.setSound b).dataAddress z = s.dataAddress z := rfl
@[simp] theorem State.dataAddress_push (a : Word) (z : Nat) : (s.push a).dataAddress z = s.dataAddress z := rfl
@[simp] theorem State.dataAddress_pop (z : Nat) : s.pop.dataAddress z = s.dataAddress z := rfl
@[simp] theorem State.dataAddress_toggleCell (k : Nat) (z : Nat) : (s.toggleCell k).dataAddress z = s.dataAddress z := rfl
@[simp] theorem State.dataAddress_clearCells (z : Nat) : s.clearCells.dataAddress z = s.dataAddress z := rfl
@[simp] theorem State.dataAddress_emit (e : Event) (z : Nat) : (s.emit e).dataAddress z = s.dataAddress z := rfl
@[simp] theorem State.dataAddress_newEvents (z : Nat) : s.newEvents.dataAddress z = s.dataAddress z := rfl
@[simp] theorem State.dataAddress_poke (a : Nat) (b : Byte) (z : Nat) : (s.poke a b).dataAddress z = s.dataAddress z := rfl
@[simp] theorem State.dataAddress_raiseRedraw (z : Nat) : s.raiseRedraw.dataAddress z = s.dataAddress z := rfl
@[simp] theorem State.dataAddress_ticks (n : Nat) (z : Nat) : (s.ticks n).dataAddress z = s.dataAddress z := rfl
@[simp] theorem State.dataAddress_nextInputs (z : Nat) : s.nextInputs.dataAddress z = s.dataAddress z := rfl
@[simp] theorem State.dataAddress_raiseFatal (c : FatalCode) (z : Nat) : (s.raiseFatal c).dataAddress z = s.dataAddress z := rfl
@[simp] theorem State.dataAddress_refuseStep (z : Nat) : s.refuseStep.dataAddress z = s.dataAddress z := rfl
@[simp] theorem State.dataAddress_beginStep (z : Nat) : s.beginStep.dataAddress z = s.dataAddress z := rfl
@[simp] theorem State.dataAddress_reportBounds (a : Nat) (kind : AccessKind) (z : Nat) : (s.reportBounds a kind).dataAddress z = s.dataAddress z := by
  unfold State.reportBounds; split <;> rfl
@[simp] theorem State.dataAddress_reportRange (b : Byte) (what : OperandKind) (z : Nat) : (s.reportRange b what).dataAddress z = s.dataAddress z := by
  unfold State.reportRange; split <;> rfl
@[simp] theorem State.dataAddress_tick (z : Nat) : s.tick.dataAddress z = s.dataAddress z := rfl
@[simp] theorem State.dataAddress_endStep (z : Nat) : s.endStep.dataAddress z = s.dataAddress z := by
  unfold State.endStep; split <;> rfl

end Sys2Proof.Machine
end

