-- ==== Sys2Proof/Laws/Decode.lean ====
section
/-! SUPPORT. The laws of the opcode table: no two rows overlap, the row a word selects is what it decodes to, and the fields of
a word put together nibble by nibble. -/

namespace Sys2Proof

/-- Some bit that both rows fix is fixed to different values. -/
def OpcodeRow.disjoint (r t : OpcodeRow) : Bool :=
  (r.pattern ^^^ t.pattern) &&& (r.mask &&& t.mask) != 0

/-- No two rows of the table can match one word (R84). -/
theorem opcodeTable_disjoint : opcodeTable.Pairwise (fun r t => r.disjoint t = true) := by decide

/-- Disjoint rows select no word together. -/
theorem OpcodeRow.disjoint_selects {r t : OpcodeRow} {w : Word} (h : r.disjoint t = true) (hr : r.selects w = true) :
    t.selects w = false := by
  rw [OpcodeRow.selects, beq_iff_eq] at hr
  simp only [OpcodeRow.disjoint, bne_iff_ne, ne_eq] at h
  rw [OpcodeRow.selects, beq_eq_false_iff_ne]
  intro ht
  apply h
  rw [← hr, ← ht]
  ext k
  simp only [BitVec.getElem_and, BitVec.getElem_xor]
  rw [show (0 : Word)[k] = false by simp]
  cases w[k] <;> cases r.mask[k] <;> cases t.mask[k] <;> rfl

/-- In a list of pairwise disjoint rows, a selected row is the one that is found. -/
theorem find_of_selects {l : List OpcodeRow} (hl : l.Pairwise (fun r t => r.disjoint t = true)) {r : OpcodeRow}
    (hr : r ∈ l) {w : Word} (h : r.selects w = true) : l.find? (fun r => r.selects w) = some r := by
  induction l with
  | nil => cases hr
  | cons t l ih =>
    rw [List.pairwise_cons] at hl
    rcases List.mem_cons.mp hr with rfl | hr'
    · simp [h]
    · have : t.selects w = false := by
        cases ht : t.selects w with
        | false => rfl
        | true => simpa [h] using OpcodeRow.disjoint_selects (hl.1 r hr') ht
      rw [List.find?_cons, this]
      exact ih hl.2 hr'

/-- A word decodes to the instruction of the row it selects (R84). -/
theorem decode_of_selects {r : OpcodeRow} (hr : r ∈ opcodeTable) {w : Word} (h : r.selects w = true) :
    decode w = .ok (r.build w) := by
  simp [decode, find_of_selects opcodeTable_disjoint hr h]

/-- What decoding can answer: a row the word selects, or unknown where it selects none (R84, R86). -/
theorem decode_cases (w : Word) :
    (∃ r ∈ opcodeTable, r.selects w = true ∧ decode w = .ok (r.build w)) ∨
      ((∀ r ∈ opcodeTable, r.selects w = false) ∧ decode w = .error (.unknownOpcode w)) := by
  unfold decode
  cases h : opcodeTable.find? (fun r => r.selects w) with
  | some r => exact .inl ⟨r, List.mem_of_find?_eq_some h, by simpa using List.find?_some h, rfl⟩
  | none =>
    refine .inr ⟨fun r hr => ?_, rfl⟩
    simpa using List.find?_eq_none.mp h r hr

/-! ### Fields of a word put together -/

@[simp] theorem fieldNnn_append (a : Nibble) (nnn : Addr12) : fieldNnn (a ++ nnn) = nnn := by
  apply BitVec.eq_of_getLsbD_eq
  intro k hk
  simp only [fieldNnn, BitVec.getLsbD_extractLsb', BitVec.getLsbD_append]
  repeat' split
  all_goals first
    | omega
    | simp_all

@[simp] theorem fieldNn_append (a x : Nibble) (nn : Byte) : fieldNn (a ++ x ++ nn) = nn := by
  apply BitVec.eq_of_getLsbD_eq
  intro k hk
  simp only [fieldNn, BitVec.getLsbD_extractLsb', BitVec.getLsbD_append]
  repeat' split
  all_goals first
    | omega
    | simp_all

@[simp] theorem fieldX_append_byte (a x : Nibble) (nn : Byte) : fieldX (a ++ x ++ nn) = x := by
  apply BitVec.eq_of_getLsbD_eq
  intro k hk
  simp only [fieldX, BitVec.getLsbD_extractLsb', BitVec.getLsbD_append]
  repeat' split
  all_goals first
    | omega
    | simp_all

@[simp] theorem fieldX_append_nibbles (a x y d : Nibble) : fieldX (a ++ x ++ y ++ d) = x := by
  apply BitVec.eq_of_getLsbD_eq
  intro k hk
  have h : 8 + k - 4 - 4 = k := by omega
  have h1 : ¬ 8 + k < 4 := by omega
  have h2 : ¬ 8 + k - 4 < 4 := by omega
  simp only [fieldX, BitVec.getLsbD_extractLsb', BitVec.getLsbD_append, h1, h2, h, hk, if_false, if_true,
    decide_true, Bool.true_and]

@[simp] theorem fieldY_append_nibbles (a x y d : Nibble) : fieldY (a ++ x ++ y ++ d) = y := by
  apply BitVec.eq_of_getLsbD_eq
  intro k hk
  simp only [fieldY, BitVec.getLsbD_extractLsb', BitVec.getLsbD_append]
  repeat' split
  all_goals first
    | omega
    | simp_all

@[simp] theorem fieldN_append_nibbles (a x y d : Nibble) : fieldN (a ++ x ++ y ++ d) = d := by
  apply BitVec.eq_of_getLsbD_eq
  intro k hk
  simp only [fieldN, BitVec.getLsbD_extractLsb', BitVec.getLsbD_append]
  repeat' split
  all_goals first
    | omega
    | simp_all

/-- A word is its four nibbles (R81). -/
theorem word_nibbles (w : Word) : w.extractLsb' 12 4 ++ fieldX w ++ fieldY w ++ fieldN w = w := by
  apply BitVec.eq_of_getLsbD_eq
  intro k hk
  simp only [fieldX, fieldY, fieldN, BitVec.getLsbD_extractLsb', BitVec.getLsbD_append]
  rcases Nat.lt_or_ge k 4 with h | h
  · simp [h]
  · rcases Nat.lt_or_ge k 8 with h8 | h8
    · simp [show ¬ k < 4 by omega, show k - 4 < 4 by omega, show 4 + (k - 4) = k by omega]
    · rcases Nat.lt_or_ge k 12 with h12 | h12
      · simp [show ¬ k < 4 by omega, show ¬ k - 4 < 4 by omega, show k - 4 - 4 < 4 by omega,
          show 8 + (k - 4 - 4) = k by omega]
      · simp [show ¬ k < 4 by omega, show ¬ k - 4 < 4 by omega, show ¬ k - 4 - 4 < 4 by omega,
          show k - 4 - 4 - 4 < 4 by omega, show 12 + (k - 4 - 4 - 4) = k by omega]

/-- The top nibble of a word put together from nibbles. -/
@[simp] theorem top_append_nibbles (a x y d : Nibble) : (a ++ x ++ y ++ d : Word).extractLsb' 12 4 = a := by
  apply BitVec.eq_of_getLsbD_eq
  intro k hk
  have h : 12 + k - 4 - 4 - 4 = k := by omega
  have h1 : ¬ 12 + k < 4 := by omega
  have h2 : ¬ 12 + k - 4 < 4 := by omega
  have h3 : ¬ 12 + k - 4 - 4 < 4 := by omega
  simp only [BitVec.getLsbD_extractLsb', BitVec.getLsbD_append, h1, h2, h3, h, hk, if_false, decide_true, Bool.true_and]

/-- Words put together from nibbles are equal nibble by nibble. -/
theorem nibbles_inj {a x y d a' x' y' d' : Nibble} :
    (a ++ x ++ y ++ d : Word) = (a' ++ x' ++ y' ++ d' : Word) ↔ a = a' ∧ x = x' ∧ y = y' ∧ d = d' := by
  constructor
  · intro h
    refine ⟨?_, ?_, ?_, ?_⟩
    · rw [← top_append_nibbles a x y d, h, top_append_nibbles]
    · rw [← fieldX_append_nibbles a x y d, h, fieldX_append_nibbles]
    · rw [← fieldY_append_nibbles a x y d, h, fieldY_append_nibbles]
    · rw [← fieldN_append_nibbles a x y d, h, fieldN_append_nibbles]
  · rintro ⟨rfl, rfl, rfl, rfl⟩; rfl

/-- A mask works nibble by nibble. -/
theorem and_nibbles (a x y d ma mx my md : Nibble) :
    ((a ++ x ++ y ++ d : Word) &&& (ma ++ mx ++ my ++ md : Word)) =
      ((a &&& ma) ++ (x &&& mx) ++ (y &&& my) ++ (d &&& md) : Word) := by
  apply BitVec.eq_of_getLsbD_eq
  intro k hk
  simp only [BitVec.getLsbD_and, BitVec.getLsbD_append]
  repeat' split
  all_goals rfl

/-- A row is selected nibble by nibble. -/
theorem selects_nibbles {ma mx my md pa px py pd a x y d : Nibble} {build : Word → Instr} :
    (OpcodeRow.mk (ma ++ mx ++ my ++ md) (pa ++ px ++ py ++ pd) build).selects (a ++ x ++ y ++ d) = true ↔
      a &&& ma = pa ∧ x &&& mx = px ∧ y &&& my = py ∧ d &&& md = pd := by
  rw [OpcodeRow.selects, beq_iff_eq]
  rw [and_nibbles]
  exact nibbles_inj

/-- A word is its two bytes, the high byte first (R52). -/
@[simp] theorem joinBytes_bytes (w : Word) : joinBytes (highByte w) (lowByte w) = w := by
  apply BitVec.eq_of_getLsbD_eq
  intro k hk
  simp only [joinBytes, highByte, lowByte, BitVec.getLsbD_extractLsb', BitVec.getLsbD_append]
  split
  · simp_all
  · have : 8 + (k - 8) = k := by omega
    have : k - 8 < 8 := by omega
    simp_all

/-! ### The fixed bits of a word put together, one lemma per format of R82 -/

/-- A mask over a nibble, a nibble and a byte. -/
theorem and_nibbles_byte (a x ma mx : Nibble) (nn mn : Byte) :
    ((a ++ x ++ nn : Word) &&& (ma ++ mx ++ mn : Word)) = ((a &&& ma) ++ (x &&& mx) ++ (nn &&& mn) : Word) := by
  apply BitVec.eq_of_getLsbD_eq
  intro k hk
  simp only [BitVec.getLsbD_and, BitVec.getLsbD_append]
  repeat' split
  all_goals rfl

/-- A mask over a nibble and a 12-bit address. -/
theorem and_nibble_addr (a ma : Nibble) (nnn mn : Addr12) :
    ((a ++ nnn : Word) &&& (ma ++ mn : Word)) = ((a &&& ma) ++ (nnn &&& mn) : Word) := by
  apply BitVec.eq_of_getLsbD_eq
  intro k hk
  simp only [BitVec.getLsbD_and, BitVec.getLsbD_append]
  split <;> rfl

theorem and_fixed_nibble (a : Nibble) : a &&& 0xF#4 = a := by revert a; decide

theorem and_free_nibble (a : Nibble) : a &&& 0x0#4 = 0x0#4 := by revert a; decide

theorem and_fixed_byte (b : Byte) : b &&& 0xFF#8 = b := by
  simpa using BitVec.and_allOnes (x := b)

theorem and_free_byte (b : Byte) : b &&& 0x00#8 = 0x00#8 := BitVec.and_zero

theorem and_free_addr (b : Addr12) : b &&& 0x000#12 = 0x000#12 := BitVec.and_zero

variable {p : Word} {build : Word → Instr}

/-- Format NNN: nibble `a` is fixed. -/
theorem selects_nnn (a : Nibble) (nnn : Addr12) (hp : p = a ++ 0x000#12) :
    (OpcodeRow.mk 0xF000 p build).selects (a ++ nnn) = true := by
  rw [OpcodeRow.selects, beq_iff_eq, hp]
  exact (and_nibble_addr a 0xF#4 nnn 0x000#12).trans (by rw [and_fixed_nibble, and_free_addr])

/-- Format XNN: nibble `a` is fixed. -/
theorem selects_xnn (a x : Nibble) (nn : Byte) (hp : p = a ++ 0x0#4 ++ 0x00#8) :
    (OpcodeRow.mk 0xF000 p build).selects (a ++ x ++ nn) = true := by
  rw [OpcodeRow.selects, beq_iff_eq, hp]
  exact (and_nibbles_byte a x 0xF#4 0x0#4 nn 0x00#8).trans (by rw [and_fixed_nibble, and_free_nibble, and_free_byte])

/-- Format X: nibble `a` and the low byte are fixed. -/
theorem selects_x (a x : Nibble) (b : Byte) (hp : p = a ++ 0x0#4 ++ b) :
    (OpcodeRow.mk 0xF0FF p build).selects (a ++ x ++ b) = true := by
  rw [OpcodeRow.selects, beq_iff_eq, hp]
  exact (and_nibbles_byte a x 0xF#4 0x0#4 b 0xFF#8).trans (by rw [and_fixed_nibble, and_free_nibble, and_fixed_byte])

/-- Format XY: nibbles `a` and `d` are fixed. -/
theorem selects_xy (a x y d : Nibble) (hp : p = a ++ 0x0#4 ++ 0x0#4 ++ d) :
    (OpcodeRow.mk 0xF00F p build).selects (a ++ x ++ y ++ d) = true := by
  rw [OpcodeRow.selects, beq_iff_eq, hp]
  exact (and_nibbles a x y d 0xF#4 0x0#4 0x0#4 0xF#4).trans
    (by rw [and_fixed_nibble, and_free_nibble, and_free_nibble, and_fixed_nibble])

/-- Format XYN: nibble `a` is fixed. -/
theorem selects_xyn (a x y n : Nibble) (hp : p = a ++ 0x0#4 ++ 0x0#4 ++ 0x0#4) :
    (OpcodeRow.mk 0xF000 p build).selects (a ++ x ++ y ++ n) = true := by
  rw [OpcodeRow.selects, beq_iff_eq, hp]
  exact (and_nibbles a x y n 0xF#4 0x0#4 0x0#4 0x0#4).trans
    (by rw [and_fixed_nibble, and_free_nibble, and_free_nibble, and_free_nibble])

end Sys2Proof
end

