-- ==== Sys2Proof/Laws/Memory.lean ====
section
/-! SUPPORT. The laws of memory: a read after a write, and the canonical form kept by every memory operation. -/

namespace Sys2Proof.Machine

variable {c : Config} {m : Memory} {a low : Nat} {b : Byte}

/-- A list in canonical form from an address on reads as its reset content below that address. -/
theorem memoryRead_below (h : Memory.wfFrom c low m = true) (ha : a < low) : memoryRead c m a = resetByte c a := by
  induction m generalizing low with
  | nil => rfl
  | cons cell rest ih =>
    simp only [Memory.wfFrom, Bool.and_eq_true, decide_eq_true_eq] at h
    have hne : cell.1 ≠ a := by omega
    simp only [memoryRead, hne, if_false]
    exact ih h.2 (by omega)

/-- A byte just written reads back. -/
theorem memoryRead_write_same (h : Memory.wfFrom c low m = true) :
    memoryRead c (memoryWrite c m a b) a = b := by
  induction m generalizing low with
  | nil => unfold memoryWrite; split <;> simp_all [memoryRead]
  | cons cell rest ih =>
    simp only [Memory.wfFrom, Bool.and_eq_true, decide_eq_true_eq] at h
    simp only [memoryWrite]
    split
    · rename_i hlt
      split
      · rename_i hb
        have hne : cell.1 ≠ a := by omega
        simp only [memoryRead, hne, if_false, hb]
        exact memoryRead_below h.2 (by omega)
      · simp [memoryRead]
    · split
      · rename_i heq
        split
        · rename_i hb
          rw [hb]
          exact memoryRead_below h.2 (by omega)
        · simp [memoryRead]
      · rename_i hne
        have hne' : cell.1 ≠ a := fun e => hne e.symm
        simp only [memoryRead, hne', if_false]
        exact ih h.2

/-- A write leaves every other byte alone. -/
theorem memoryRead_write_other {z : Nat} (hz : z ≠ a) :
    memoryRead c (memoryWrite c m a b) z = memoryRead c m z := by
  have hza : ¬ a = z := fun e => hz e.symm
  induction m with
  | nil => unfold memoryWrite; split <;> simp [memoryRead, hza]
  | cons cell rest ih =>
    simp only [memoryWrite]
    split
    · split <;> simp [memoryRead, hza]
    · split
      · rename_i heq
        have : cell.1 ≠ z := by omega
        split <;> simp [memoryRead, hza, this]
      · simp only [memoryRead, ih]

/-- A write of the 4096-byte space keeps the canonical form. -/
theorem memoryWrite_wfFrom (h : Memory.wfFrom c low m = true) (hlow : low ≤ a) (ha : a < 4096) :
    Memory.wfFrom c low (memoryWrite c m a b) = true := by
  induction m generalizing low with
  | nil => unfold memoryWrite; split <;> simp_all [Memory.wfFrom]
  | cons cell rest ih =>
    have h' := h
    simp only [Memory.wfFrom, Bool.and_eq_true, decide_eq_true_eq] at h
    simp only [memoryWrite]
    split
    · split
      · exact h'
      · rename_i hlt hb
        simp only [Memory.wfFrom, Bool.and_eq_true, decide_eq_true_eq]
        exact ⟨⟨⟨hlow, ha⟩, hb⟩, ⟨⟨by omega, h.1.1.2⟩, h.1.2⟩, h.2⟩
    · split
      · rename_i heq
        split
        · have : ∀ {l l' : Nat} {r : Memory}, l ≤ l' → Memory.wfFrom c l' r = true → Memory.wfFrom c l r = true := by
            intro l l' r hl hr
            cases r with
            | nil => rfl
            | cons d r =>
              simp only [Memory.wfFrom, Bool.and_eq_true, decide_eq_true_eq] at hr ⊢
              exact ⟨⟨⟨by omega, hr.1.1.2⟩, hr.1.2⟩, hr.2⟩
          exact this (by omega) h.2
        · rename_i hb
          simp only [Memory.wfFrom, Bool.and_eq_true, decide_eq_true_eq]
          exact ⟨⟨⟨hlow, ha⟩, hb⟩, heq ▸ h.2⟩
      · simp only [Memory.wfFrom, Bool.and_eq_true, decide_eq_true_eq]
        exact ⟨h.1, ih h.2 (by omega)⟩

/-- A write at an effective address keeps the canonical form. -/
theorem memoryWrite_wf (h : Memory.wf c m = true) (ha : a < 4096) : Memory.wf c (memoryWrite c m a b) = true :=
  memoryWrite_wfFrom h (Nat.zero_le _) ha

/-- Reset memory is in canonical form, for every choice of the parameters. -/
theorem resetWith_wf (c : Config) : Memory.wf (State.resetWith c).config (State.resetWith c).mem = true := rfl

/-- Every effective address is in the 4096-byte space (R54). -/
theorem effectiveAddress_lt (a : Nat) : effectiveAddress a < 4096 := Nat.mod_lt _ (by decide)

/-! ### Over State -/

/-- A byte just stored reads back. -/
theorem State.peek_poke_same (s : State) (h : Memory.wf s.config s.mem = true) : (s.poke a b).peek a = b :=
  memoryRead_write_same h

/-- A store leaves every other byte alone. -/
theorem State.peek_poke_other (s : State) {z : Nat} (hz : z ≠ a) : (s.poke a b).peek z = s.peek z :=
  memoryRead_write_other hz

/-- `MemWrite` stores at the effective address (R61). -/
theorem State.peek_memWrite_same (s : State) (h : Memory.wf s.config s.mem = true) :
    (s.memWrite a b).peek (effectiveAddress a) = b :=
  State.peek_poke_same _ (by simpa using h)

/-- `MemWrite` changes that one byte and nothing else of memory (R61). -/
theorem State.peek_memWrite_other (s : State) {z : Nat} (hz : z ≠ effectiveAddress a) :
    (s.memWrite a b).peek z = s.peek z := by
  rw [State.memWrite, State.peek_poke_other _ hz, State.peek_reportBounds]

/-- `MemWrite` keeps the canonical form. -/
theorem State.memWrite_wf (s : State) (h : Memory.wf s.config s.mem = true) :
    Memory.wf (s.memWrite a b).config (s.memWrite a b).mem = true := by
  simpa [State.memWrite] using memoryWrite_wf (b := b) h (effectiveAddress_lt a)

/-- `placeWord` keeps the canonical form. -/
theorem State.placeWord_wf (s : State) (w : Word) (h : Memory.wf s.config s.mem = true) :
    Memory.wf (s.placeWord w).config (s.placeWord w).mem = true :=
  memoryWrite_wf (memoryWrite_wf h (effectiveAddress_lt _)) (effectiveAddress_lt _)

end Sys2Proof.Machine
end

