-- ==== Sys2Proof/Laws/Ops.lean ====
section
/-! SUPPORT. One lemma for what each shared operation can do: registers, loops, events, accesses, timers, cells, the step's
parts. Provers cite these instead of unfolding the operations. -/

namespace Sys2Proof.Machine

variable (s : State)

/-! ### Registers -/

/-- A register write, read back through any register number. -/
theorem State.reg_setReg (x y : Nibble) (b : Byte) : (s.setReg x b).reg y = if x = y then b else s.reg y := by
  unfold State.reg State.setReg
  rw [Vector.getElem_set]
  simp only [← BitVec.toNat_inj]

@[simp] theorem State.reg_setReg_same (x : Nibble) (b : Byte) : (s.setReg x b).reg x = b := by
  simp [State.reg_setReg]

theorem State.reg_setReg_other {s : State} {x y : Nibble} {b : Byte} (h : y ≠ x) : (s.setReg x b).reg y = s.reg y := by
  simp [State.reg_setReg, Ne.symm h]

/-- Two register files that read the same are the same. -/
theorem State.v_ext {s t : State} (h : ∀ r, t.reg r = s.reg r) : t.v = s.v := by
  refine Vector.ext fun k hk => ?_
  simpa [State.reg, Nat.mod_eq_of_lt hk] using h (BitVec.ofNat 4 k)

/-! ### Loops -/

@[simp] theorem forUp_zero (f : Nat → State → State) : forUp 0 f s = s := rfl

@[simp] theorem forUp_succ (n : Nat) (f : Nat → State → State) : forUp (n + 1) f s = f n (forUp n f s) := rfl

/-- What every pass of a loop keeps, the loop keeps. -/
theorem forUp_keeps {P : State → Prop} {n : Nat} {f : Nat → State → State} {s : State} (h0 : P s)
    (hf : ∀ k t, k < n → P t → P (f k t)) : P (forUp n f s) := by
  induction n with
  | zero => exact h0
  | succ n ih => exact hf n _ (by omega) (ih fun k t hk => hf k t (by omega))

/-- What no pass of a loop changes, the loop does not change. -/
theorem forUp_same {α : Type} (g : State → α) {n : Nat} {f : Nat → State → State} {s : State}
    (hf : ∀ k t, k < n → g (f k t) = g t) : g (forUp n f s) = g s :=
  forUp_keeps (P := fun t => g t = g s) rfl fun k t hk ht => (hf k t hk).trans ht

/-- A loop whose passes each append an event list appends them in order. -/
theorem forUp_events {n : Nat} {f : Nat → State → State} {e : Nat → List Event} {s : State}
    (hf : ∀ k t, k < n → (f k t).events = t.events ++ e k) :
    (forUp n f s).events = s.events ++ (List.range n).flatMap e := by
  induction n with
  | zero => simp
  | succ n ih =>
    rw [forUp_succ, hf n _ (by omega), ih fun k t hk => hf k t (by omega)]
    simp [List.range_succ]

/-! ### Events and accesses -/

@[simp] theorem State.reportBounds_events (a : Nat) (kind : AccessKind) :
    (s.reportBounds a kind).events = s.events ++ boundsEvents kind [a] := by
  unfold State.reportBounds boundsEvents
  split <;> simp_all

@[simp] theorem State.reportRange_events (b : Byte) (what : OperandKind) :
    (s.reportRange b what).events = s.events ++ rangeEvents b what := by
  unfold State.reportRange rangeEvents
  split <;> simp_all

/-- The events of a list of addresses, one address at a time. -/
theorem boundsEvents_flatMap (kind : AccessKind) (l : List Nat) :
    l.flatMap (fun a => boundsEvents kind [a]) = boundsEvents kind l := by
  induction l with
  | nil => rfl
  | cons a l ih =>
    rw [List.flatMap_cons, ih]
    unfold boundsEvents
    by_cases h : 4095 < a <;> simp [h]

theorem boundsEvents_append (kind : AccessKind) (l m : List Nat) :
    boundsEvents kind (l ++ m) = boundsEvents kind l ++ boundsEvents kind m := by
  simp [boundsEvents]

@[simp] theorem State.memRead_fst (a : Nat) (kind : AccessKind) :
    (s.memRead a kind).1 = s.peek (effectiveAddress a) := rfl

@[simp] theorem State.memRead_snd (a : Nat) (kind : AccessKind) : (s.memRead a kind).2 = s.reportBounds a kind := rfl

/-- A store changes memory and the event list only. -/
theorem State.memWrite_frame (a : Nat) (b : Byte) :
    s.memWrite a b =
      { s with mem := (s.memWrite a b).mem, events := s.events ++ boundsEvents .write [a] } := by
  unfold State.memWrite State.reportBounds boundsEvents
  split <;> simp_all [State.poke, State.emit]

/-- A fetch changes the event list only. -/
theorem State.fetch_frame :
    s.fetch.2 = { s with events := s.events ++ boundsEvents .fetch [s.pc.toNat, s.pc.toNat + 1] } := by
  simp only [State.fetch, State.memRead, State.reportBounds, boundsEvents]
  split <;> split <;> simp_all [State.emit]

/-- A fetch gives the word at `PC` (R102). -/
theorem State.fetch_word : s.fetch.1 = s.wordAtPc := by
  simp [State.fetch, State.wordAtPc]

/-- The effective address of an address in range is the address (R54). -/
theorem effectiveAddress_of_lt {a : Nat} (h : a < 4096) : effectiveAddress a = a := Nat.mod_eq_of_lt h

/-! ### The program counter -/

/-- A skip or the plain advance (R105). -/
@[simp] theorem State.skipIf_pc (c : Bool) : (s.skipIf c).pc = if c then s.pc + 4 else s.pc + 2 := by
  unfold State.skipIf
  split <;> rfl

/-! ### The framebuffer -/

/-- A toggle changes its cell and no other. -/
theorem State.cell_toggleCell {k z : Nat} (hz : z < 2048) :
    (s.toggleCell k).cell z = if z = k then !s.cell z else s.cell z := by
  unfold State.cell State.toggleCell
  simp only [BitVec.getLsbD_xor, BitVec.getLsbD_shiftLeft, BitVec.getLsbD_one]
  by_cases h : z = k
  · subst h; simp [hz]
  · by_cases hlt : z < k
    · simp [h, hlt]
    · have : ¬ z - k = 0 := by omega
      simp [h, this]

@[simp] theorem State.cell_clearCells (z : Nat) : s.clearCells.cell z = false := by
  simp [State.cell, State.clearCells]

/-- A cell index is always in range (R58). -/
theorem cellIndex_lt (x0 y0 r col : Nat) : cellIndex x0 y0 r col < 2048 := by
  unfold cellIndex; omega

/-! ### The timers -/

theorem countdown_toNat (n : Nat) (t : Byte) : (countdown n t).toNat = t.toNat - n := by
  have := t.isLt
  simp only [countdown, BitVec.toNat_ofNat]
  omega

@[simp] theorem countdown_zero (t : Byte) : countdown 0 t = t := by
  apply BitVec.eq_of_toNat_eq; simp [countdown_toNat]

/-- One tick is one decrement with a floor of zero (R232). -/
theorem State.tick_eq_ticks : s.tick = s.ticks 1 := by
  have h : ∀ t : Byte, (if t = 0 then t else t - 1) = countdown 1 t := by decide
  simp only [State.tick, State.ticks, h]

@[simp] theorem State.ticks_zero : s.ticks 0 = s := by
  simp [State.ticks]

theorem State.ticks_add (m n : Nat) : (s.ticks m).ticks n = s.ticks (m + n) := by
  have h : ∀ t : Byte, countdown n (countdown m t) = countdown (m + n) t := fun t => by
    apply BitVec.eq_of_toNat_eq; simp [countdown_toNat]; omega
  simp [State.ticks, h]

@[simp] theorem State.driverTicks_eq : s.driverTicks = s.ticks s.env.ticks := rfl

/-! ### The step's parts -/

/-- The end of a step changes the timers only, and ticks exactly when R109 says so. -/
theorem State.endStep_cases :
    s.endStep = if s.config.tickPerStep = true ∧ s.status ≠ .halted then s.tick else s := rfl

/-- The end of a step changes `DT` and `ST` only. -/
theorem State.endStep_frame : s.endStep = { s with dt := s.endStep.dt, st := s.endStep.st } := by
  unfold State.endStep State.tick; split <;> rfl

/-- A finished step is a next state exactly when the instruction gave one. -/
theorem finishStep_next {r : Result} {t : State} :
    finishStep r = .next t ↔ ∃ u, r = .next u ∧ t = u.endStep.nextInputs := by
  cases r <;> simp [finishStep, eq_comm]

end Sys2Proof.Machine
end

