-- ==== Sys2Proof/Laws/PerInstr.lean ====
section
/-! SUPPORT. The family EncodeSelectsRow, one lemma per instruction: the encoder puts the fixed bits of the instruction's own
row of the opcode table into the word, and the row reads every field back (30_encoding.md R82 to R85). -/

namespace Sys2Proof.Laws.EncodeSelectsRow

open Sys2Proof

/-- The encoded word selects a row of the table that builds the instruction. -/
def Statement (i : Instr) : Prop :=
  ∃ r ∈ opcodeTable, r.selects (encode i) = true ∧ r.build (encode i) = i

theorem cls : Statement .cls := ⟨opcodeTable[0], List.getElem_mem _, rfl, rfl⟩

theorem ret : Statement .ret := ⟨opcodeTable[1], List.getElem_mem _, rfl, rfl⟩

theorem jp (nnn : Addr12) : Statement (.jp nnn) :=
  ⟨opcodeTable[2], List.getElem_mem _, selects_nnn 0x1#4 nnn rfl,
    congrArg Instr.jp (fieldNnn_append _ _)⟩

theorem call (nnn : Addr12) : Statement (.call nnn) :=
  ⟨opcodeTable[3], List.getElem_mem _, selects_nnn 0x2#4 nnn rfl,
    congrArg Instr.call (fieldNnn_append _ _)⟩

theorem seVxNn (x : Nibble) (nn : Byte) : Statement (.seVxNn x nn) :=
  ⟨opcodeTable[4], List.getElem_mem _, selects_xnn 0x3#4 x nn rfl,
    congrArg₂ Instr.seVxNn (fieldX_append_byte _ _ _) (fieldNn_append _ _ _)⟩

theorem sneVxNn (x : Nibble) (nn : Byte) : Statement (.sneVxNn x nn) :=
  ⟨opcodeTable[5], List.getElem_mem _, selects_xnn 0x4#4 x nn rfl,
    congrArg₂ Instr.sneVxNn (fieldX_append_byte _ _ _) (fieldNn_append _ _ _)⟩

theorem seVxVy (x y : Nibble) : Statement (.seVxVy x y) :=
  ⟨opcodeTable[6], List.getElem_mem _, selects_xy 0x5#4 x y 0x0#4 rfl,
    congrArg₂ Instr.seVxVy (fieldX_append_nibbles _ _ _ _) (fieldY_append_nibbles _ _ _ _)⟩

theorem ldVxNn (x : Nibble) (nn : Byte) : Statement (.ldVxNn x nn) :=
  ⟨opcodeTable[7], List.getElem_mem _, selects_xnn 0x6#4 x nn rfl,
    congrArg₂ Instr.ldVxNn (fieldX_append_byte _ _ _) (fieldNn_append _ _ _)⟩

theorem addVxNn (x : Nibble) (nn : Byte) : Statement (.addVxNn x nn) :=
  ⟨opcodeTable[8], List.getElem_mem _, selects_xnn 0x7#4 x nn rfl,
    congrArg₂ Instr.addVxNn (fieldX_append_byte _ _ _) (fieldNn_append _ _ _)⟩

theorem ldVxVy (x y : Nibble) : Statement (.ldVxVy x y) :=
  ⟨opcodeTable[9], List.getElem_mem _, selects_xy 0x8#4 x y 0x0#4 rfl,
    congrArg₂ Instr.ldVxVy (fieldX_append_nibbles _ _ _ _) (fieldY_append_nibbles _ _ _ _)⟩

theorem orVxVy (x y : Nibble) : Statement (.orVxVy x y) :=
  ⟨opcodeTable[10], List.getElem_mem _, selects_xy 0x8#4 x y 0x1#4 rfl,
    congrArg₂ Instr.orVxVy (fieldX_append_nibbles _ _ _ _) (fieldY_append_nibbles _ _ _ _)⟩

theorem andVxVy (x y : Nibble) : Statement (.andVxVy x y) :=
  ⟨opcodeTable[11], List.getElem_mem _, selects_xy 0x8#4 x y 0x2#4 rfl,
    congrArg₂ Instr.andVxVy (fieldX_append_nibbles _ _ _ _) (fieldY_append_nibbles _ _ _ _)⟩

theorem xorVxVy (x y : Nibble) : Statement (.xorVxVy x y) :=
  ⟨opcodeTable[12], List.getElem_mem _, selects_xy 0x8#4 x y 0x3#4 rfl,
    congrArg₂ Instr.xorVxVy (fieldX_append_nibbles _ _ _ _) (fieldY_append_nibbles _ _ _ _)⟩

theorem addVxVy (x y : Nibble) : Statement (.addVxVy x y) :=
  ⟨opcodeTable[13], List.getElem_mem _, selects_xy 0x8#4 x y 0x4#4 rfl,
    congrArg₂ Instr.addVxVy (fieldX_append_nibbles _ _ _ _) (fieldY_append_nibbles _ _ _ _)⟩

theorem subVxVy (x y : Nibble) : Statement (.subVxVy x y) :=
  ⟨opcodeTable[14], List.getElem_mem _, selects_xy 0x8#4 x y 0x5#4 rfl,
    congrArg₂ Instr.subVxVy (fieldX_append_nibbles _ _ _ _) (fieldY_append_nibbles _ _ _ _)⟩

theorem shrVx (x y : Nibble) : Statement (.shrVx x y) :=
  ⟨opcodeTable[15], List.getElem_mem _, selects_xy 0x8#4 x y 0x6#4 rfl,
    congrArg₂ Instr.shrVx (fieldX_append_nibbles _ _ _ _) (fieldY_append_nibbles _ _ _ _)⟩

theorem shlVx (x y : Nibble) : Statement (.shlVx x y) :=
  ⟨opcodeTable[16], List.getElem_mem _, selects_xy 0x8#4 x y 0xE#4 rfl,
    congrArg₂ Instr.shlVx (fieldX_append_nibbles _ _ _ _) (fieldY_append_nibbles _ _ _ _)⟩

theorem sneVxVy (x y : Nibble) : Statement (.sneVxVy x y) :=
  ⟨opcodeTable[17], List.getElem_mem _, selects_xy 0x9#4 x y 0x0#4 rfl,
    congrArg₂ Instr.sneVxVy (fieldX_append_nibbles _ _ _ _) (fieldY_append_nibbles _ _ _ _)⟩

theorem ldINnn (nnn : Addr12) : Statement (.ldINnn nnn) :=
  ⟨opcodeTable[18], List.getElem_mem _, selects_nnn 0xA#4 nnn rfl,
    congrArg Instr.ldINnn (fieldNnn_append _ _)⟩

theorem reservedBnnn (nnn : Addr12) : Statement (.reservedBnnn nnn) :=
  ⟨opcodeTable[19], List.getElem_mem _, selects_nnn 0xB#4 nnn rfl,
    congrArg Instr.reservedBnnn (fieldNnn_append _ _)⟩

theorem rnd (x : Nibble) (nn : Byte) : Statement (.rnd x nn) :=
  ⟨opcodeTable[20], List.getElem_mem _, selects_xnn 0xC#4 x nn rfl,
    congrArg₂ Instr.rnd (fieldX_append_byte _ _ _) (fieldNn_append _ _ _)⟩

theorem drw (x y n : Nibble) : Statement (.drw x y n) :=
  ⟨opcodeTable[21], List.getElem_mem _, selects_xyn 0xD#4 x y n rfl,
    by
    rw [show (opcodeTable[21]).build (encode (.drw x y n)) = .drw (fieldX (0xD#4 ++ x ++ y ++ n))
      (fieldY (0xD#4 ++ x ++ y ++ n)) (fieldN (0xD#4 ++ x ++ y ++ n)) from rfl]
    rw [fieldX_append_nibbles, fieldY_append_nibbles, fieldN_append_nibbles]⟩

theorem skp (x : Nibble) : Statement (.skp x) :=
  ⟨opcodeTable[22], List.getElem_mem _, selects_x 0xE#4 x 0x9E#8 rfl,
    congrArg Instr.skp (fieldX_append_byte _ _ _)⟩

theorem sknp (x : Nibble) : Statement (.sknp x) :=
  ⟨opcodeTable[23], List.getElem_mem _, selects_x 0xE#4 x 0xA1#8 rfl,
    congrArg Instr.sknp (fieldX_append_byte _ _ _)⟩

theorem ldVxDt (x : Nibble) : Statement (.ldVxDt x) :=
  ⟨opcodeTable[24], List.getElem_mem _, selects_x 0xF#4 x 0x07#8 rfl,
    congrArg Instr.ldVxDt (fieldX_append_byte _ _ _)⟩

theorem ldVxK (x : Nibble) : Statement (.ldVxK x) :=
  ⟨opcodeTable[25], List.getElem_mem _, selects_x 0xF#4 x 0x0A#8 rfl,
    congrArg Instr.ldVxK (fieldX_append_byte _ _ _)⟩

theorem ldDtVx (x : Nibble) : Statement (.ldDtVx x) :=
  ⟨opcodeTable[26], List.getElem_mem _, selects_x 0xF#4 x 0x15#8 rfl,
    congrArg Instr.ldDtVx (fieldX_append_byte _ _ _)⟩

theorem ldStVx (x : Nibble) : Statement (.ldStVx x) :=
  ⟨opcodeTable[27], List.getElem_mem _, selects_x 0xF#4 x 0x18#8 rfl,
    congrArg Instr.ldStVx (fieldX_append_byte _ _ _)⟩

theorem addIVx (x : Nibble) : Statement (.addIVx x) :=
  ⟨opcodeTable[28], List.getElem_mem _, selects_x 0xF#4 x 0x1E#8 rfl,
    congrArg Instr.addIVx (fieldX_append_byte _ _ _)⟩

theorem ldFVx (x : Nibble) : Statement (.ldFVx x) :=
  ⟨opcodeTable[29], List.getElem_mem _, selects_x 0xF#4 x 0x29#8 rfl,
    congrArg Instr.ldFVx (fieldX_append_byte _ _ _)⟩

theorem ldBVx (x : Nibble) : Statement (.ldBVx x) :=
  ⟨opcodeTable[30], List.getElem_mem _, selects_x 0xF#4 x 0x33#8 rfl,
    congrArg Instr.ldBVx (fieldX_append_byte _ _ _)⟩

theorem ldMemVx (x : Nibble) : Statement (.ldMemVx x) :=
  ⟨opcodeTable[31], List.getElem_mem _, selects_x 0xF#4 x 0x55#8 rfl,
    congrArg Instr.ldMemVx (fieldX_append_byte _ _ _)⟩

theorem ldVxMem (x : Nibble) : Statement (.ldVxMem x) :=
  ⟨opcodeTable[32], List.getElem_mem _, selects_x 0xF#4 x 0x65#8 rfl,
    congrArg Instr.ldVxMem (fieldX_append_byte _ _ _)⟩

end Sys2Proof.Laws.EncodeSelectsRow
end

