-- ==== Sys2Proof/Tests/Slice0.lean ====
section
/-! SUPPORT. The model's own tests: well-formedness, decoding by words written out from spec/30_encoding.md, single steps against
the vectors of spec/95_test_vectors.md, and a state that meets the hypotheses of each obligation. -/

namespace Sys2Proof.Tests

open Sys2Proof Sys2Proof.Machine

/-! ### The small states of the tests -/

/-- An environment with no key, no poll answer, draw 0 and no tick. -/
def quiet : Inputs := { keys := Vector.replicate 16 false, poll := none, random := 0, ticks := 0 }

/-- The reset state with some registers set and a quiet environment for its next step. -/
def withRegs (regs : List (Nibble × Byte)) : State :=
  { regs.foldl (fun s r => s.setReg r.1 r.2) State.reset with inputs := [quiet] }

/-- Bytes placed in memory from an address up. -/
def place (a : Nat) (bytes : List Byte) (s : State) : State :=
  match bytes with
  | [] => s
  | b :: rest => place (a + 1) rest (s.poke (a % 4096) b)

/-- A framebuffer with the listed cells at 1. -/
def cells (l : List Nat) : BitVec 2048 := l.foldl (fun m k => m ||| (1#2048 <<< k)) 0

/-- What a view of the next state shows, with the word at `PC`; none where the step stops. -/
def after {α : Type} (w : Word) (s : State) (view : State → α) : Option α :=
  match step (s.placeWord w) with
  | .next t => some (view t)
  | .fault _ => none
  | .refused _ => none

/-- Does decoding a word give this instruction? -/
def decodesTo (w : Word) (i : Instr) : Bool := decide (decodeTableWord 16 w.toNat = some i)

/-- A word that decodes to nothing, or to the reserved pattern. -/
def isUnknown (w : Word) : Bool :=
  match decode w with
  | .ok i => !i.wellFormed
  | .error _ => true

/-! ### Well-formedness -/

theorem test_wellFormed_refuses_reserved : (Instr.reservedBnnn 0x123).wellFormed = false := by decide

theorem test_wellFormed_takes_instructions :
    Instr.cls.wellFormed = true ∧ (Instr.ldVxMem 0xF).wellFormed = true ∧ (Instr.drw 0 0 0).wellFormed = true := by decide

/-! ### Decoding: every row of R84, its word written out bit by bit, fields a mix of ones and zeros -/

theorem test_decode_fixed_and_addresses :
    decodesTo 0b0000000011100000 .cls = true ∧ decodesTo 0b0000000011101110 .ret = true ∧
    decodesTo 0b0001101010111100 (.jp 0xABC) = true ∧ decodesTo 0b0010000100100011 (.call 0x123) = true ∧
    decodesTo 0b1010111111111110 (.ldINnn 0xFFE) = true ∧ decodesTo 0b1011000000000001 (.reservedBnnn 0x001) = true := by
  decide

theorem test_decode_immediates :
    decodesTo 0b0011101001000010 (.seVxNn 0xA 0x42) = true ∧ decodesTo 0b0100101001000010 (.sneVxNn 0xA 0x42) = true ∧
    decodesTo 0b0110111110101011 (.ldVxNn 0xF 0xAB) = true ∧ decodesTo 0b0111000100000001 (.addVxNn 0x1 0x01) = true ∧
    decodesTo 0b1100000100001111 (.rnd 0x1 0x0F) = true := by decide

theorem test_decode_register_pairs :
    decodesTo 0b0101000100100000 (.seVxVy 1 2) = true ∧ decodesTo 0b1001001101000000 (.sneVxVy 3 4) = true ∧
    decodesTo 0b1000000100100000 (.ldVxVy 1 2) = true ∧ decodesTo 0b1000000100100001 (.orVxVy 1 2) = true ∧
    decodesTo 0b1000000100100010 (.andVxVy 1 2) = true ∧ decodesTo 0b1000000100100011 (.xorVxVy 1 2) = true ∧
    decodesTo 0b1000111100010100 (.addVxVy 0xF 1) = true ∧ decodesTo 0b1000000111110101 (.subVxVy 1 0xF) = true ∧
    decodesTo 0b1000000100100110 (.shrVx 1 2) = true ∧ decodesTo 0b1000000100101110 (.shlVx 1 2) = true := by decide

theorem test_decode_display_and_keys :
    decodesTo 0b1101000111110101 (.drw 1 0xF 5) = true ∧ decodesTo 0b1110000110011110 (.skp 1) = true ∧
    decodesTo 0b1110000110100001 (.sknp 1) = true ∧ decodesTo 0b1111001100001010 (.ldVxK 3) = true := by decide

theorem test_decode_timers_and_index :
    decodesTo 0b1111011000000111 (.ldVxDt 6) = true ∧ decodesTo 0b1111000000010101 (.ldDtVx 0) = true ∧
    decodesTo 0b1111000100011000 (.ldStVx 1) = true ∧ decodesTo 0b1111111100011110 (.addIVx 0xF) = true ∧
    decodesTo 0b1111000100101001 (.ldFVx 1) = true ∧ decodesTo 0b1111000100110011 (.ldBVx 1) = true ∧
    decodesTo 0b1111001001010101 (.ldMemVx 2) = true ∧ decodesTo 0b1111010001100101 (.ldVxMem 4) = true := by decide

/-- 95 section 2.1, the unknown words. -/
theorem test_decode_unknown :
    [0x00E1, 0x00FD, 0x0000, 0x01E0, 0x5121, 0x9121, 0x8127, 0x8128, 0x812F, 0xB000, 0xBFFF, 0xE19F, 0xE0A0, 0xF100,
      0xF175, 0xF185].all isUnknown = true := by decide

/-- 30 R80: two bytes are one instruction, the bytes after it are left; one byte is none. -/
theorem test_decode_bytes :
    (match decodeBytes [0x12, 0xF0, 0x99] with
      | .ok (i, rest) => decide (i = .jp 0x2F0 ∧ rest = [0x99])
      | .error _ => false) = true ∧
    (match decodeBytes [0x12] with
      | .ok _ => false
      | .error e => decide (e = .truncated)) = true := by decide

/-! ### Control flow (95 section 2.3) -/

theorem test_ret_pops :
    after 0x00EE { withRegs [] with sp := 16, stack := (Vector.replicate 16 0).set 15 0x0456 }
      (fun t => (t.pc, t.sp, t.status)) = some (0x456, 15, .ok) := by decide

theorem test_ret_underflow :
    after 0x00EE (withRegs []) (fun t => (t.pc, t.sp, t.halted, t.status, t.events)) =
      some (0x200, 0, true, .halted, [.fatal .stackUnderflow 0x200]) := by decide

theorem test_jp : after 0x1ABC (withRegs []) (fun t => (t.pc, t.events)) = some (0xABC, []) := by decide

/-- 95 section 2.2: the second byte of a fetch at 0xFFF is the font byte at 0x000. -/
theorem test_jp_fetch_wraps :
    (match step (place 0xFFF [0x12] { withRegs [] with pc := 0xFFF }) with
      | .next t => some (t.pc, t.events)
      | _ => none) = some (0x2F0, [.addressOutOfBounds 0x1000 .fetch]) := by decide

theorem test_call_last_slot :
    after 0x2ABC { withRegs [] with sp := 15 } (fun t => (t.pc, t.sp, t.slot 15)) = some (0xABC, 16, 0x0202) := by decide

theorem test_call_overflow :
    after 0x2ABC { withRegs [] with sp := 16 } (fun t => (t.pc, t.sp, t.halted, t.status, t.events)) =
      some (0x200, 16, true, .halted, [.fatal .stackOverflow 0x200]) := by decide

theorem test_se_immediate :
    after 0x3A42 (withRegs [(0xA, 0x42)]) (fun t => t.pc) = some 0x204 ∧
    after 0x3A42 (withRegs [(0xA, 0x43)]) (fun t => t.pc) = some 0x202 := by decide

theorem test_se_target_wraps :
    after 0x3000 { withRegs [] with pc := 0xFFFC } (fun t => (t.pc, t.events)) =
      some (0x0000, [.addressOutOfBounds 0xFFFC .fetch, .addressOutOfBounds 0xFFFD .fetch]) := by decide

theorem test_sne_immediate :
    after 0x4A42 (withRegs [(0xA, 0x42)]) (fun t => t.pc) = some 0x202 ∧
    after 0x4A42 (withRegs [(0xA, 0x43)]) (fun t => t.pc) = some 0x204 := by decide

theorem test_se_registers :
    after 0x5120 (withRegs [(1, 7), (2, 7)]) (fun t => t.pc) = some 0x204 ∧
    after 0x5120 (withRegs [(1, 7), (2, 8)]) (fun t => t.pc) = some 0x202 := by decide

theorem test_sne_registers :
    after 0x9120 (withRegs [(1, 7), (2, 8)]) (fun t => t.pc) = some 0x204 ∧
    after 0x9330 (withRegs [(3, 9)]) (fun t => t.pc) = some 0x202 := by decide

/-- 95 section 2.8: an unknown word reports, advances and ticks. -/
theorem test_reserved :
    after 0xBFFF { withRegs [] with dt := 1, st := 2, config := { defaultConfig with tickPerStep := true } }
      (fun t => (t.pc, t.dt, t.st, t.status, t.events)) = some (0x202, 0, 1, .ok, [.unknownOpcode 0xBFFF 0x200]) := by decide

/-- 95 section 2.2: zeroed or font memory above 0xFFF, an unknown word, `PC` not reduced. -/
theorem test_unknown_past_memory :
    (match step { withRegs [] with pc := 0x1000 } with
      | .next t => some (t.pc, t.events)
      | _ => none) =
      some (0x1002, [.addressOutOfBounds 0x1000 .fetch, .addressOutOfBounds 0x1001 .fetch,
        .unknownOpcode 0xF090 0x1000]) := by decide

/-! ### Register loads and the ALU (95 section 2.4) -/

theorem test_ld_immediate : after 0x6FAB (withRegs []) (fun t => (t.reg 0xF, t.pc)) = some (0xAB, 0x202) := by decide

theorem test_add_immediate_no_flag :
    after 0x7101 (withRegs [(1, 0xFF), (0xF, 0x55)]) (fun t => (t.reg 1, t.reg 0xF)) = some (0x00, 0x55) := by decide

theorem test_ld_register :
    after 0x8120 (withRegs [(1, 1), (2, 0x99), (0xF, 7)]) (fun t => (t.reg 1, t.reg 2, t.reg 0xF)) =
      some (0x99, 0x99, 7) := by decide

theorem test_or :
    after 0x8121 (withRegs [(1, 0xF0), (2, 0x0F), (0xF, 7)]) (fun t => (t.reg 1, t.reg 0xF)) = some (0xFF, 7) := by decide

theorem test_and :
    after 0x8122 (withRegs [(1, 0xF0), (2, 0x3C), (0xF, 7)]) (fun t => (t.reg 1, t.reg 0xF)) = some (0x30, 7) := by decide

theorem test_xor :
    after 0x8123 (withRegs [(1, 0xF0), (2, 0x3C), (0xF, 7)]) (fun t => (t.reg 1, t.reg 0xF)) = some (0xCC, 7) := by decide

theorem test_add_carry_boundary :
    after 0x8124 (withRegs [(1, 0x7F), (2, 0x80), (0xF, 1)]) (fun t => (t.reg 1, t.reg 0xF)) = some (0xFF, 0) ∧
    after 0x8124 (withRegs [(1, 0x80), (2, 0x80)]) (fun t => (t.reg 1, t.reg 0xF)) = some (0x00, 1) := by decide

theorem test_add_into_vf : after 0x8F14 (withRegs [(0xF, 200), (1, 100)]) (fun t => t.reg 0xF) = some 1 := by decide

theorem test_sub_borrow :
    after 0x8125 (withRegs [(1, 7), (2, 7)]) (fun t => (t.reg 1, t.reg 0xF)) = some (0, 1) ∧
    after 0x8125 (withRegs [(1, 0), (2, 1)]) (fun t => (t.reg 1, t.reg 0xF)) = some (0xFF, 0) := by decide

theorem test_sub_into_vf : after 0x8F15 (withRegs [(0xF, 5), (1, 10)]) (fun t => t.reg 0xF) = some 251 := by decide

theorem test_shr_ignores_y :
    after 0x8126 (withRegs [(1, 4), (2, 0xFF), (0xF, 9)]) (fun t => (t.reg 1, t.reg 2, t.reg 0xF)) =
      some (2, 0xFF, 0) := by decide

theorem test_shr_into_vf : after 0x8F06 (withRegs [(0xF, 7)]) (fun t => t.reg 0xF) = some 3 := by decide

theorem test_shl_moves_top_bit :
    after 0x812E (withRegs [(1, 129), (2, 0xFF)]) (fun t => (t.reg 1, t.reg 2, t.reg 0xF)) = some (2, 0xFF, 1) := by decide

theorem test_shl_into_vf : after 0x8F0E (withRegs [(0xF, 0x81)]) (fun t => t.reg 0xF) = some 0x02 := by decide

theorem test_rnd_masks :
    after 0xC10F { withRegs [] with inputs := [{ quiet with random := 0xA7 }] } (fun t => t.reg 1) = some 0x07 := by decide

/-! ### Index and memory (95 section 2.5) -/

theorem test_ld_index : after 0xAFFF (withRegs []) (fun t => t.i) = some 0x0FFF := by decide

theorem test_add_index_wraps :
    after 0xF11E { withRegs [(1, 0xFF)] with i := 0xFFFF } (fun t => t.i) = some 0x00FE := by decide

theorem test_add_index_no_flag :
    after 0xF11E { withRegs [(1, 1), (0xF, 9)] with i := 0x0FFF } (fun t => (t.i, t.reg 0xF, t.events)) =
      some (0x1000, 9, []) := by decide

theorem test_font_low_digit :
    after 0xF129 (withRegs [(1, 0xFF)]) (fun t => (t.i, t.events)) = some (0x004B, [.operandOutOfRange 0xFF .font]) := by
  decide

theorem test_bcd_wraps :
    after 0xF133 { withRegs [(1, 123)] with i := 0x0FFE }
      (fun t => (t.peek 0xFFE, t.peek 0xFFF, t.peek 0, t.i, t.events)) =
      some (1, 2, 3, 0x0FFE, [.addressOutOfBounds 0x1000 .write]) := by decide

/-- A digit equal to the reset content leaves no entry in memory's list. -/
theorem test_bcd_canonical :
    after 0xF133 (place 0x300 [9, 9, 9] { withRegs [] with i := 0x300 })
      (fun t => (t.peek 0x300, t.peek 0x302, t.mem, Memory.wf t.config t.mem)) =
      some (0, 0, [(0x200, 0xF1), (0x201, 0x33)], true) := by decide

theorem test_dump_includes_x :
    after 0xF155 { withRegs [(0, 0x11), (1, 0x22), (2, 0x33)] with i := 0x400 }
      (fun t => (t.peek 0x400, t.peek 0x401, t.peek 0x402, t.i)) = some (0x11, 0x22, 0, 0x400) := by decide

theorem test_dump_wraps :
    after 0xF155 { withRegs [(0, 0xA7), (1, 0xA8)] with i := 0x0FFF } (fun t => (t.peek 0xFFF, t.peek 0, t.events)) =
      some (0xA7, 0xA8, [.addressOutOfBounds 0x1000 .write]) := by decide

theorem test_load_reads_font :
    after 0xF465 (withRegs [(5, 6)]) (fun t => ((List.range 6).map (fun k => t.reg (BitVec.ofNat 4 k)), t.i)) =
      some ([0xF0, 0x90, 0x90, 0x90, 0xF0, 6], 0) := by decide

theorem test_load_wraps :
    after 0xF165 (place 0xFFF [0x77] { withRegs [] with i := 0x0FFF }) (fun t => (t.reg 0, t.reg 1, t.events)) =
      some (0x77, 0xF0, [.addressOutOfBounds 0x1000 .read]) := by decide

/-! ### Display (95 section 2.6) -/

theorem test_cls :
    after 0x00E0 { withRegs [(0xF, 1)] with fb := cells [0, 100, 2047] }
      (fun t => (t.fb, t.reg 0xF, t.drawFlag, t.events, t.pc)) = some (0, 1, true, [.redraw], 0x202) := by decide +kernel

theorem test_drw_wraps :
    after 0xD011 (place 0x300 [0xFF] { withRegs [(0, 60), (1, 31)] with i := 0x300 })
      (fun t => (t.fb, t.reg 0xF, t.drawFlag, t.events)) =
      some (cells [2044, 2045, 2046, 2047, 1984, 1985, 1986, 1987], 0, true, [.redraw]) := by decide +kernel

theorem test_drw_collides :
    after 0xD011 (place 0x300 [0xC0] { withRegs [] with i := 0x300, fb := cells [0] }) (fun t => (t.fb, t.reg 0xF)) =
      some (cells [1], 1) := by decide +kernel

/-! ### Keypad and timers (95 sections 2.7 and 2.8) -/

/-- An environment in which one key is pressed. -/
def pressing (k : Nibble) : Inputs := { quiet with keys := quiet.keys.set k.toNat true k.isLt }

theorem test_skp :
    after 0xE59E { withRegs [(5, 0x1A)] with inputs := [pressing 0xA] } (fun t => (t.pc, t.events)) =
      some (0x204, [.operandOutOfRange 0x1A .key]) ∧
    after 0xE59E { withRegs [(5, 0x0A)] with inputs := [pressing 0xB] } (fun t => (t.pc, t.events)) = some (0x202, []) := by
  decide

theorem test_sknp :
    after 0xE5A1 { withRegs [(5, 0xFF)] with inputs := [pressing 0xF] } (fun t => (t.pc, t.events)) =
      some (0x202, [.operandOutOfRange 0xFF .key]) ∧
    after 0xE5A1 { withRegs [(5, 0x0A)] with inputs := [pressing 0xB] } (fun t => (t.pc, t.events)) = some (0x204, []) := by
  decide

theorem test_key_wait_waits_and_ticks :
    after 0xF30A { withRegs [(3, 9)] with dt := 5, config := { defaultConfig with tickPerStep := true } }
      (fun t => (t.status, t.pc, t.reg 3, t.dt, t.events)) = some (.waiting, 0x200, 9, 4, []) := by decide

theorem test_key_wait_takes_key :
    after 0xFF0A { withRegs [(0xF, 9)] with inputs := [{ quiet with poll := some 0 }] }
      (fun t => (t.reg 0xF, t.pc, t.status)) = some (0, 0x202, .ok) := by decide

theorem test_read_delay :
    after 0xF607 { withRegs [] with dt := 0x2A, config := { defaultConfig with tickPerStep := true } }
      (fun t => (t.reg 6, t.dt)) = some (0x2A, 0x29) := by decide

theorem test_load_delay :
    after 0xF015 { withRegs [(0, 0x3C)] with config := { defaultConfig with tickPerStep := true } } (fun t => t.dt) =
      some 0x3B := by decide

theorem test_load_sound :
    after 0xF118 { withRegs [] with st := 4 } (fun t => (t.st, t.events, t.soundActive)) =
      some (0, [.toneRequest 0], false) := by decide

theorem test_load_sound_tone_before_tick :
    after 0xF118 { withRegs [(1, 1)] with config := { defaultConfig with tickPerStep := true } }
      (fun t => (t.st, t.events, t.soundActive)) = some (0, [.toneRequest 1], false) := by decide

/-- 95 section 2.8: a halted step does not tick; the ticks of the driver before it do (60 R235). -/
theorem test_halted_step :
    (match step { withRegs [] with
        halted := true, dt := 2, inputs := [{ quiet with ticks := 1 }],
        config := { defaultConfig with tickPerStep := true } } with
      | .next t => some (t.dt, t.pc, t.halted, t.status, t.events)
      | _ => none) = some (1, 0x200, true, .halted, []) := by decide

theorem test_tick_floor :
    (({ State.reset with dt := 255, st := 1 } : State).tick.dt, ({ State.reset with dt := 255, st := 1 } : State).tick.st,
      State.reset.tick.dt) = (254, 0, 0) := by decide

/-! ### Load and reset (95 section 2.9) -/

theorem test_load_overlays :
    (let r := applyLoad [0xAA, 0xBB] (place 0x200 [0x11, 0x22, 0x33, 0x44] State.reset)
     (r.1, (List.range 4).map (fun k => r.2.peek (0x200 + k)))) = (.ok, [0xAA, 0xBB, 0x33, 0x44]) := by decide

theorem test_reset_restores :
    (let t := applyReset (place 0 [0x55] { withRegs [(3, 9)] with halted := true, fb := cells [7], pc := 0x300 })
     (t.halted, t.reg 3, t.fb, t.peek 0, t.peek 0x200, t.pc)) = (false, 0, 0, 0xF0, 0, 0x200) := by decide +kernel

/-! ### Hypotheses that are met: one theorem per obligation that has any, each clause at the ends of its range -/

/-- The hypothesis of every `WordsDecodeTo`, for each row of the table, with the free bits all 0 and all 1. -/
theorem witness_WordsDecodeTo :
    opcodeTable.all (fun r => r.pattern &&& r.mask == r.pattern && (r.pattern ||| ~~~r.mask) &&& r.mask == r.pattern) =
      true := by decide

theorem witness_EncodeOfDecodeGivesWord : decode 0x8126 = .ok (.shrVx 1 2) := rfl

theorem witness_DecodeFollowsDispatchTree :
    (Instr.ldVxMem 0xF).wellFormed = true ∧ decode 0xFF65 = .ok (.ldVxMem 0xF) ∧
      dispatchTree 0xFF65 = some (.ldVxMem 0xF) := ⟨rfl, rfl, rfl⟩

/-- A state whose next word is `1200` at 0x200. -/
def idling : State := (withRegs []).placeWord 0x1200

theorem witness_StepRunsDecodedInstruction_next :
    idling.halted = false ∧ decode idling.wordAtPc = .ok (.jp 0x200) ∧
      ∃ u, exec (.jp 0x200) idling.readyToRun = .next u := ⟨rfl, rfl, _, rfl⟩

/-- A state with `SP` above 16 at a return. -/
def overfull : State := { (withRegs []).placeWord 0x00EE with sp := 17 }

theorem witness_StepRunsDecodedInstruction_fault :
    overfull.halted = false ∧ decode overfull.wordAtPc = .ok .ret ∧
      exec .ret overfull.readyToRun = .fault .stackPointerIllegal := ⟨rfl, rfl, rfl⟩

/-- A word that is unknown gives the hypothesis of the statement on unknown words. -/
theorem atUnknownWord_of_isUnknown {s : State} (h : isUnknown s.wordAtPc = true) : s.AtUnknownWord := by
  intro i hi
  simpa [isUnknown, hi] using h

theorem witness_StepReportsUnknownWord :
    (withRegs []).halted = false ∧ (withRegs []).AtUnknownWord ∧ ((withRegs []).placeWord 0xBFFF).AtUnknownWord :=
  ⟨rfl, atUnknownWord_of_isUnknown (by decide), atUnknownWord_of_isUnknown (by decide)⟩

/-- A halted state. -/
def stopped : State := { withRegs [] with halted := true }

theorem witness_HaltedStepChangesNothing : stopped.halted = true := rfl

theorem witness_DriverTicksComeBeforeStep : stopped.halted = true := rfl

theorem witness_FetchReadsTwoBytes :
    ({ withRegs [] with pc := 0xFFE } : State).pc.toNat ≤ 0xFFE ∧ ({ withRegs [] with pc := 0xFFF } : State).pc.toNat = 0xFFF ∧
      0x1000 ≤ ({ withRegs [] with pc := 0x1000 } : State).pc.toNat ∧
      0x1000 ≤ ({ withRegs [] with pc := 0xFFFF } : State).pc.toNat := by decide

/-- A state at a return with an empty stack, and its parameter `TICK_PER_STEP` true. -/
def underflowing : State :=
  { (withRegs []).placeWord 0x00EE with config := { defaultConfig with tickPerStep := true } }

theorem witness_EndOfStepTick :
    (idling.halted = false ∧ decode idling.wordAtPc = .ok (.jp 0x200) ∧
      ∃ u, exec (.jp 0x200) idling.readyToRun = .next u ∧ u.status = .ok) ∧
    (underflowing.halted = false ∧ decode underflowing.wordAtPc = .ok .ret ∧
      ∃ u, exec .ret underflowing.readyToRun = .next u ∧ u.status = .halted) :=
  ⟨⟨rfl, rfl, _, rfl, rfl⟩, ⟨rfl, rfl, _, rfl, rfl⟩⟩

theorem witness_FetchEventsComeFirst : idling.halted = false ∧ ∃ t, step idling = .next t := ⟨rfl, _, rfl⟩

theorem witness_StoreIsSeenByNextFetch :
    Memory.wf idling.config idling.mem = true ∧ 0x1200 % 4096 = idling.pc.toNat % 4096 ∧
      0x201 % 4096 = (idling.pc.toNat + 1) % 4096 := by decide

theorem witness_StepKeepsInvariant : idling.Inv ∧ ∃ t, step idling = .next t :=
  ⟨⟨by decide, by decide, by decide⟩, _, rfl⟩

/-- The invariant at its edge: a full call stack, a halted core. -/
theorem witness_EveryStepCompletes : ({ stopped with sp := 16 } : State).Inv := ⟨by decide, by decide, by decide⟩

theorem witness_DrawFlagMarksDisplaySteps :
    idling.halted = false ∧ (∃ t, step idling = .next t ∧ t.drawFlag = false) ∧
      ∃ t, step (idling.placeWord 0x00E0) = .next t ∧ t.drawFlag = true := ⟨rfl, ⟨_, rfl, rfl⟩, _, rfl, rfl⟩

theorem witness_OnlyFatalFaultsHalt :
    (∃ t, step underflowing = .next t ∧ t.halted = true) ∧ ∃ t, step idling = .next t ∧ t.halted = false :=
  ⟨⟨_, rfl, rfl⟩, _, rfl, rfl⟩

theorem witness_FatalFaultIsPrecise :
    (underflowing.halted = false ∧
      after 0x00EE underflowing (fun t => decide (.fatal .stackUnderflow underflowing.pc ∈ t.events)) = some true) ∧
    after 0x2ABC { withRegs [] with sp := 16 } (fun t => decide (.fatal .stackOverflow 0x200 ∈ t.events)) = some true := by
  decide

/-- What a view shows of an instruction's next state. -/
def shown {α : Type} (i : Instr) (s : State) (view : State → α) : Option α :=
  match exec i s with
  | .next t => some (view t)
  | .fault _ => none
  | .refused _ => none

/-- Each clause has an instruction that changes its field. -/
theorem witness_OnlyNamedInstructionsWriteSpecialState :
    shown .ret { withRegs [] with sp := 1 } (fun t => t.sp) = some 0 ∧
    shown .ret (withRegs []) (fun t => t.halted) = some true ∧
    shown (.call 0x300) (withRegs []) (fun t => t.slot 0) = some 0x202 ∧
    shown (.ldINnn 0x300) (withRegs []) (fun t => t.i) = some 0x300 ∧
    shown (.ldDtVx 1) (withRegs [(1, 5)]) (fun t => t.dt) = some 5 ∧
    shown (.ldStVx 1) (withRegs [(1, 5)]) (fun t => t.st) = some 5 ∧
    shown (.ldBVx 1) { withRegs [(1, 5)] with i := 0x300 } (fun t => t.mem) = some [(0x302, 5)] := by decide

theorem witness_OnlyNamedInstructionsWriteSpecialState_framebuffer :
    shown .cls { withRegs [] with fb := cells [0] } (fun t => t.fb) = some 0 ∧ cells [0] ≠ 0 := by decide +kernel

theorem witness_OnlyNamedInstructionsWriteVf :
    shown (.ldVxNn 0xF 0xAB) (withRegs []) (fun t => t.reg 0xF) = some 0xAB ∧ (withRegs []).reg 0xF = 0 := by decide

theorem witness_ObedientStepReportsNothing :
    idling.Inv ∧ idling.halted = false ∧ idling.pc.toNat ≤ 0xFFE ∧ decode idling.wordAtPc = .ok (.jp 0x200) ∧
      idling.MeetsObligations (.jp 0x200) ∧ (∃ t, step idling = .next t) ∧ idling.Clean :=
  ⟨⟨by decide, by decide, by decide⟩, rfl, by decide, rfl, trivial, ⟨_, rfl⟩, rfl, by decide⟩

/-- The obligations of software at the ends of their ranges. -/
theorem witness_MeetsObligations :
    State.MeetsObligations { withRegs [] with sp := 15 } (.call 0x300) ∧
    State.MeetsObligations { withRegs [] with sp := 1 } .ret ∧
    State.MeetsObligations { withRegs [] with i := 0xFF1 } (.drw 0 1 0xF) ∧
    State.MeetsObligations { withRegs [] with i := 0xFFD } (.ldBVx 0) ∧
    State.MeetsObligations { withRegs [] with i := 0xFF0 } (.ldMemVx 0xF) ∧
    State.MeetsObligations { withRegs [] with i := 0xFFF } (.ldVxMem 0) ∧
    State.MeetsObligations (withRegs [(1, 15)]) (.skp 1) ∧ State.MeetsObligations (withRegs [(1, 15)]) (.sknp 1) ∧
    State.MeetsObligations (withRegs [(1, 15)]) (.ldFVx 1) := by
  simp only [State.MeetsObligations]; decide

theorem witness_IdleLoopIsFinal :
    idling.Idle ∧ idling.pc.toNat ≠ 0xFFF ∧ (({ withRegs [] with pc := 0xFFF } : State).placeWord 0x1FFF).Idle :=
  ⟨⟨rfl, 0x200, rfl, rfl⟩, by decide, ⟨rfl, 0xFFF, rfl, rfl⟩⟩

theorem witness_LoadCopiesImage :
    (List.replicate 3584 (0 : Byte)).length ≤ 3584 ∧ 3584 < (List.replicate 3585 (0 : Byte)).length ∧
      Memory.wf idling.config idling.mem = true ∧ 0 < [(0xAA : Byte)].length := by
  simp only [List.length_replicate]; decide

/-- The font region of the reset state and the bytes beside it, at the lowest and the highest `FONT_BASE`. -/
theorem witness_ResetGivesResetState :
    (let t := State.reset
     (t.peek 0, t.peek 79, t.peek 80, t.peek 4095)) = (0xF0, 0x80, 0, 0) ∧
    (let t := State.resetWith { defaultConfig with fontBase := 432 }
     (t.peek 431, t.peek 432, t.peek 511, t.peek 512)) = (0, 0xF0, 0x80, 0) := by decide

theorem witness_ReturnPopsAddress :
    (1 ≤ (1#5).toNat ∧ (1#5).toNat ≤ 16) ∧ (1 ≤ (16#5).toNat ∧ (16#5).toNat ≤ 16) ∧ (withRegs []).sp.toNat = 0 ∧
      16 < overfull.sp.toNat ∧ 16 < (31#5).toNat := by decide

theorem witness_CallPushesReturnAddress :
    (withRegs []).sp.toNat < 16 ∧ ({ withRegs [] with sp := 15 } : State).sp.toNat < 16 ∧
      ({ withRegs [] with sp := 16 } : State).sp.toNat = 16 ∧ 16 < overfull.sp.toNat := by decide

/-- The state after the call is itself one that a return may start from. -/
theorem witness_CallThenReturnResumes :
    ({ withRegs [] with sp := 15 } : State).sp.toNat < 16 ∧
      ∃ t t' : State, exec (.call 0x300) { withRegs [] with sp := 15 } = .next t ∧ t'.sp = t.sp ∧ t'.slot 15 = t.slot 15 :=
  ⟨by decide, _, _, rfl, rfl, rfl⟩

theorem witness_ReservedPatternIsUnknown :
    (0xB000 ≤ (0xB000 : Word).toNat ∧ (0xB000 : Word).toNat ≤ 0xBFFF) ∧
      0xB000 ≤ (0xBFFF : Word).toNat ∧ (0xBFFF : Word).toNat ≤ 0xBFFF := by decide

/-- The clauses on VF of the additions, subtractions and shifts: `x` is not F. -/
theorem witness_flag_clauses : (0x0 : Nibble) ≠ 0xF ∧ (0xE : Nibble) ≠ 0xF := by decide

theorem witness_BcdStoresThreeDigits : Memory.wf idling.config idling.mem = true := by decide

theorem witness_RegisterDumpStoresV0ToVx :
    Memory.wf idling.config idling.mem = true ∧ (0x0 : Nibble).toNat ≤ (0x0 : Nibble).toNat ∧
      (0xF : Nibble).toNat ≤ (0xF : Nibble).toNat := by decide

theorem witness_RegisterLoadReadsV0ToVx :
    (0x0 : Nibble).toNat ≤ (0x0 : Nibble).toNat ∧ (0xF : Nibble).toNat ≤ (0xF : Nibble).toNat := by decide

/-- A sprite of one row at the last cell of the screen, wrapping to the first column: it covers (63, 31) and (6, 31) and no
more of the row's middle. -/
theorem witness_DrawFlipsCoveredCells :
    (let s := place 0x300 [0xFF] { withRegs [(0, 63), (1, 31)] with i := 0x300 }
     (s.spriteCovers 0 1 1 63 31, s.spriteCovers 0 1 1 6 31, s.spriteCovers 0 1 1 7 31, s.spriteCovers 0 1 1 63 0)) =
      (true, true, false, false) := by decide

theorem witness_DrawTwiceRestoresFramebuffer :
    ∃ t, exec (.drw 0 1 1) (withRegs [(0, 63), (1, 31)]) = .next t ∧
      (t.reg 0).toNat % 64 = ((withRegs [(0, 63), (1, 31)]).reg 0).toNat % 64 ∧
      (t.reg 1).toNat % 32 = ((withRegs [(0, 63), (1, 31)]).reg 1).toNat % 32 :=
  ⟨_, rfl, by decide +kernel, by decide +kernel⟩

theorem witness_KeySkipsFollowKeyPressed :
    (0xF : Nibble).toNat = ((withRegs [(5, 0xFF)]).reg 5).toNat % 16 ∧
      (0x0 : Nibble).toNat = ((withRegs []).reg 5).toNat % 16 := by decide

theorem witness_KeyWaitNeverBlocks :
    (withRegs []).env.poll = none ∧
      ({ withRegs [] with inputs := [{ quiet with poll := some 0xF }] } : State).env.poll = some 0xF := by decide

/-- The clauses on whole steps of the key wait and the delay timer, and the words of the skips that are unknown. -/
theorem witness_whole_step_clauses :
    (withRegs []).halted = false ∧ decode ((withRegs []).placeWord 0xF30A).wordAtPc = .ok (.ldVxK 3) ∧
      ((withRegs []).placeWord 0xF30A).env.poll = none ∧
      decode ((withRegs []).placeWord 0xF607).wordAtPc = .ok (.ldVxDt 6) ∧
      decode ((withRegs []).placeWord 0xF015).wordAtPc = .ok (.ldDtVx 0) := ⟨rfl, rfl, rfl, rfl, rfl⟩

theorem witness_SkipsCompareRegisters :
    ((0x5121 : Word) &&& 0xF000 = 0x5000 ∧ fieldN 0x5121 ≠ 0) ∧ (0x912F : Word) &&& 0xF000 = 0x9000 ∧ fieldN 0x912F ≠ 0 := by
  decide

end Sys2Proof.Tests
end

/-! ## Decoding as the dispatch tree reads a word (40_step_cycle.md R104) -/

namespace Sys2Proof

/-- What the decoder answers, as a statement about the rows of the opcode table (R84). -/
theorem decode_eq_ok_iff {w : Word} {i : Instr} :
    decode w = .ok i ↔ ∃ r ∈ opcodeTable, r.selects w = true ∧ r.build w = i := by
  constructor
  · intro h
    obtain ⟨r, hr, hw, hd⟩ | ⟨-, hd⟩ := decode_cases w
    · exact ⟨r, hr, hw, Except.ok.inj (hd.symm.trans h)⟩
    · cases hd.symm.trans h
  · rintro ⟨r, hr, hw, rfl⟩
    exact decode_of_selects hr hw

/-- The low byte of a word is its nibbles `y` and `d` (R83). -/
theorem fieldNn_toNat (w : Word) : (fieldNn w).toNat = (fieldY w).toNat * 16 + (fieldN w).toNat := by
  simp only [fieldNn, fieldY, fieldN, BitVec.extractLsb'_toNat, Nat.shiftRight_eq_div_pow]
  omega

/-- Two words have the same low byte exactly when they have the same nibbles `y` and `d`. -/
theorem fieldNn_inj {w p : Word} : fieldNn w = fieldNn p ↔ fieldY w = fieldY p ∧ fieldN w = fieldN p := by
  simp only [← BitVec.toNat_inj, fieldNn_toNat]
  have hw := (fieldN w).isLt
  have hp := (fieldN p).isLt
  omega

section
variable {w m p : Word} {build : Word → Instr}

/-- A row whose pattern lies in its mask selects a word that agrees with the pattern in each nibble under the mask (R84). -/
theorem selects_iff_nibbles (hp : p &&& m = p) :
    (OpcodeRow.mk m p build).selects w = true ↔
      w.extractLsb' 12 4 &&& m.extractLsb' 12 4 = p.extractLsb' 12 4 &&& m.extractLsb' 12 4 ∧
      fieldX w &&& fieldX m = fieldX p &&& fieldX m ∧ fieldY w &&& fieldY m = fieldY p &&& fieldY m ∧
      fieldN w &&& fieldN m = fieldN p &&& fieldN m := by
  rw [← nibbles_inj, ← and_nibbles, ← and_nibbles, word_nibbles, word_nibbles, word_nibbles, hp, OpcodeRow.selects,
    beq_iff_eq]

/-- Formats NNN, XNN and XYN: the row asks for nibble `a`. -/
theorem selects_iff_top (hp : p &&& 0xF000 = p) :
    (OpcodeRow.mk 0xF000 p build).selects w = true ↔ (w.extractLsb' 12 4).toNat = (p.extractLsb' 12 4).toNat := by
  rw [selects_iff_nibbles hp, show (0xF000 : Word) = 0xF#4 ++ 0x0#4 ++ 0x0#4 ++ 0x0#4 from rfl]
  simp only [top_append_nibbles, fieldX_append_nibbles, fieldY_append_nibbles, fieldN_append_nibbles, and_fixed_nibble,
    and_free_nibble, and_true, BitVec.toNat_inj]

/-- Format XY: the row asks for the nibbles `a` and `d`. -/
theorem selects_iff_top_fieldN (hp : p &&& 0xF00F = p) :
    (OpcodeRow.mk 0xF00F p build).selects w = true ↔
      (w.extractLsb' 12 4).toNat = (p.extractLsb' 12 4).toNat ∧ (fieldN w).toNat = (p.extractLsb' 0 4).toNat := by
  rw [selects_iff_nibbles hp, show (0xF00F : Word) = 0xF#4 ++ 0x0#4 ++ 0x0#4 ++ 0xF#4 from rfl]
  simp only [top_append_nibbles, fieldX_append_nibbles, fieldY_append_nibbles, fieldN_append_nibbles, and_fixed_nibble,
    and_free_nibble, true_and, BitVec.toNat_inj]
  rfl

/-- Format X: the row asks for nibble `a` and the low byte. -/
theorem selects_iff_top_fieldNn (hp : p &&& 0xF0FF = p) :
    (OpcodeRow.mk 0xF0FF p build).selects w = true ↔
      (w.extractLsb' 12 4).toNat = (p.extractLsb' 12 4).toNat ∧ (fieldNn w).toNat = (p.extractLsb' 0 8).toNat := by
  rw [selects_iff_nibbles hp, show (0xF0FF : Word) = 0xF#4 ++ 0x0#4 ++ 0xF#4 ++ 0xF#4 from rfl]
  simp only [top_append_nibbles, fieldX_append_nibbles, fieldY_append_nibbles, fieldN_append_nibbles, and_fixed_nibble,
    and_free_nibble, true_and, BitVec.toNat_inj, ← fieldNn_inj]
  rfl

/-- A row that fixes the whole word; its nibble `a` is named beside it, as the tree of R104 looks at that one first. -/
theorem selects_iff_top_eq :
    (OpcodeRow.mk 0xFFFF p build).selects w = true ↔ (w.extractLsb' 12 4).toNat = (p.extractLsb' 12 4).toNat ∧ w = p := by
  have h : w &&& 0xFFFF = w := BitVec.and_allOnes
  rw [OpcodeRow.selects, beq_iff_eq, h, iff_and_self]
  rintro rfl
  rfl

end

end Sys2Proof

namespace Sys2Proof.Machine

/-- Settles O3: each row of the opcode table asks for one value of nibble `a` and for what the tree looks at below it. For
each of the 16 values of nibble `a` the rows that are left are the branches of the tree; only the row of `Bnnn`, which is no
instruction, has none. -/
theorem decodeFollowsDispatchTree : Obligations.DecodeFollowsDispatchTree := by
  intro w i hi
  have hB (nnn : Addr12) : Instr.reservedBnnn nnn ≠ i := by rintro rfl; cases hi
  rw [decode_eq_ok_iff]
  simp only [opcodeTable, opcodeRowsLow, opcodeRowsAlu, opcodeRowsHigh, List.cons_append, List.nil_append,
    List.exists_mem_cons_iff, List.not_mem_nil, false_and, exists_false, or_false, hB, and_false, false_or]
  simp (disch := decide) only [selects_iff_top, selects_iff_top_fieldN, selects_iff_top_fieldNn, selects_iff_top_eq]
  simp only [dispatchTree, BitVec.ofNat_eq_ofNat, BitVec.reduceExtractLsb', BitVec.reduceToNat]
  have ha := (w.extractLsb' 12 4).isLt
  generalize (w.extractLsb' 12 4).toNat = a at *
  match a, ha with
  | 0, _ | 14, _ =>
    simp only [Nat.reduceEqDiff, reduceCtorEq, true_and, false_and, or_false, false_or]
    split_ifs <;> simp_all
  | 8, _ | 15, _ =>
    simp only [Nat.reduceEqDiff, reduceCtorEq, true_and, false_and, or_false, false_or]
    split <;> simp_all
  | 1, _ | 2, _ | 3, _ | 4, _ | 5, _ | 6, _ | 7, _ | 9, _ | 10, _ | 11, _ | 12, _ | 13, _ => simp
  | _ + 16, ha => omega

end Sys2Proof.Machine

/-! ## The fetch (40_step_cycle.md R102) -/

namespace Sys2Proof.Machine

/-- Big-endian: the byte at the lower address counts 256-fold (R52, R80). -/
theorem joinBytes_toNat (hi lo : Byte) : (joinBytes hi lo).toNat = hi.toNat * 256 + lo.toNat := by
  rw [joinBytes, BitVec.toNat_append, ← Nat.shiftLeft_add_eq_or_of_lt lo.isLt, Nat.shiftLeft_eq]

theorem State.fetch_toNat (s : State) :
    s.fetch.1.toNat =
      (s.peek (effectiveAddress s.pc.toNat)).toNat * 256 + (s.peek (effectiveAddress (s.pc.toNat + 1))).toNat := by
  rw [s.fetch_word, State.wordAtPc, joinBytes_toNat]

theorem State.fetch_events (s : State) :
    s.fetch.2.events = s.events ++ boundsEvents .fetch [s.pc.toNat, s.pc.toNat + 1] := by
  rw [s.fetch_frame]

/-- Accesses inside memory are not reported (R54). -/
theorem boundsEvents_of_le {kind : AccessKind} {l : List Nat} (h : ∀ a ∈ l, a ≤ 4095) : boundsEvents kind l = [] := by
  simpa [boundsEvents] using h

/-- Accesses above memory are reported one by one, in order (R54). -/
theorem boundsEvents_of_gt {kind : AccessKind} {l : List Nat} (h : ∀ a ∈ l, 4095 < a) :
    boundsEvents kind l = l.map (fun a => .addressOutOfBounds a kind) := by
  rw [boundsEvents, List.filter_eq_self.2 (by simpa using h)]

/-- Settles O9: the word and the events of a fetch are those of its two addresses, and each of the three ranges of `PC` says
which of the two lie above 4095. -/
theorem fetchReadsTwoBytes : Obligations.FetchReadsTwoBytes := by
  intro s
  rw [s.fetch_toNat, s.fetch_events]
  refine ⟨fun h => ⟨?_, ?_⟩, fun h => ⟨?_, ?_⟩, fun h => ⟨rfl, ?_⟩, s.fetch_frame⟩
  · rw [effectiveAddress_of_lt (by omega), effectiveAddress_of_lt (by omega)]
  · rw [boundsEvents_of_le (by simp; omega), List.append_nil]
  · rw [h]; rfl
  · rw [h]; rfl
  · rw [boundsEvents_of_gt (by simp; omega)]; rfl

end Sys2Proof.Machine

/-! ## A step as one run of `exec` (40_step_cycle.md R100) -/

namespace Sys2Proof.Machine

variable {s : State}

/-- The fetch of a step gives the word at the `PC` the step began with: the driver's ticks touch neither. -/
theorem State.stepFetch_fst (s : State) : s.driverTicks.beginStep.fetch.1 = s.wordAtPc := by
  rw [State.fetch_word]; rfl

/-- The fetch of a step leaves the state its instruction runs in. -/
theorem State.stepFetch_snd (s : State) : s.driverTicks.beginStep.fetch.2 = s.readyToRun := by
  rw [State.fetch_frame]; rfl

theorem step_of_decode {i : Instr} (hs : s.halted = false) (hd : decode s.wordAtPc = .ok i) :
    step s = finishStep (exec i s.readyToRun) := by
  have h : s.driverTicks.halted = false := hs
  simp only [step, h, s.stepFetch_fst, s.stepFetch_snd, hd, Bool.false_eq_true, if_false]

theorem step_of_decode_error {e : DecodeError} (hs : s.halted = false) (hd : decode s.wordAtPc = .error e) :
    step s = finishStep (execUnknown s.wordAtPc s.readyToRun) := by
  have h : s.driverTicks.halted = false := hs
  simp only [step, h, s.stepFetch_fst, s.stepFetch_snd, hd, Bool.false_eq_true, if_false]

end Sys2Proof.Machine

/-! ## The draw flag and `Redraw` (40_step_cycle.md R106) -/

namespace Sys2Proof.Machine

/-- The running step has raised no redraw: the draw flag is 0 and its event list holds no `Redraw`. -/
def State.Undrawn (s : State) : Prop := s.drawFlag = false ∧ Event.redraw ∉ s.events

/-- The running step has raised the redraw: the draw flag is 1 and its event list holds `Redraw`. -/
def State.Redrawn (s : State) : Prop := s.drawFlag = true ∧ Event.redraw ∈ s.events

/-- The two instructions that raise the redraw (R190, R191). -/
def isDisplay : Instr → Bool
  | .cls | .drw _ _ _ => true
  | _ => false

theorem isDisplay_iff {i : Instr} : isDisplay i = true ↔ i = .cls ∨ ∃ x y n, i = .drw x y n := by
  cases i <;> simp [isDisplay]

/-! ### What keeps a step undrawn -/

@[simp] theorem redraw_notMem_boundsEvents (kind : AccessKind) (l : List Nat) : Event.redraw ∉ boundsEvents kind l := by
  simp [boundsEvents]

@[simp] theorem redraw_notMem_rangeEvents (b : Byte) (what : OperandKind) : Event.redraw ∉ rangeEvents b what := by
  unfold rangeEvents
  split <;> simp

theorem State.readyToRun_undrawn (s : State) : s.readyToRun.Undrawn := ⟨rfl, redraw_notMem_boundsEvents _ _⟩

section
variable {s : State} (h : s.Undrawn)
include h

theorem State.Undrawn.memWrite (a : Nat) (b : Byte) : (s.memWrite a b).Undrawn := by
  simpa [State.Undrawn, State.memWrite] using h

theorem State.Undrawn.loadReg (a k : Nat) : (s.loadReg a k).Undrawn := by
  simpa [State.Undrawn, State.loadReg] using h

theorem State.Undrawn.raiseFatal (c : FatalCode) : (s.raiseFatal c).Undrawn := by
  simpa [State.Undrawn] using h.2

theorem State.Undrawn.unknownOpcode (w : Word) : (s.unknownOpcode w).Undrawn := by
  simpa [State.Undrawn, State.unknownOpcode] using h

end

/-! ### What an instruction does -/

/-- A display instruction ends with the redraw raised, whatever its loops did. -/
theorem exec_redrawn {i : Instr} {s u : State} (hi : isDisplay i = true) (h : exec i s = .next u) : u.Redrawn := by
  obtain rfl | ⟨x, y, n, rfl⟩ := isDisplay_iff.1 hi
  all_goals
    cases h
    simp [State.Redrawn, State.raiseRedraw]

/-- Every other instruction raises none: its loops and faults keep the step undrawn, and what else it does touches neither
the draw flag nor, beside reports and tone requests, the event list. -/
theorem exec_undrawn {i : Instr} {s u : State} (hi : isDisplay i = false) (hs : s.Undrawn) (h : exec i s = .next u) :
    u.Undrawn := by
  cases i with
  | cls => cases hi
  | drw x y n => cases hi
  | ret =>
    simp only [exec, execRet] at h
    split at h
    · cases h; exact hs.raiseFatal _
    · split at h
      · cases h; exact hs
      · cases h
  | call nnn =>
    simp only [exec, execCall] at h
    split at h
    · cases h; exact hs.raiseFatal _
    · split at h
      · cases h; exact hs
      · cases h
  | reservedBnnn nnn => cases h; exact hs.unknownOpcode _
  | ldBVx x => cases h; exact forUp_keeps (P := State.Undrawn) hs fun _ _ _ ht => ht.memWrite _ _
  | ldMemVx x => cases h; exact forUp_keeps (P := State.Undrawn) hs fun _ _ _ ht => ht.memWrite _ _
  | ldVxMem x => cases h; exact forUp_keeps (P := State.Undrawn) hs fun _ _ _ ht => ht.loadReg _ _
  | ldVxK x => cases h; split <;> exact hs
  | _ => cases h; simpa [State.Undrawn] using hs

/-- Settles O17: a step begins undrawn; an unknown word and every instruction but the two of the display keep it so, those
two end redrawn, and the end of the step touches neither the flag nor the events. -/
theorem drawFlagMarksDisplaySteps : Obligations.DrawFlagMarksDisplaySteps := by
  intro s t hs ht
  cases hd : decode s.wordAtPc with
  | error e =>
    rw [step_of_decode_error hs hd] at ht
    obtain ⟨u, hu, rfl⟩ := finishStep_next.1 ht
    cases hu
    obtain ⟨hf, he⟩ := s.readyToRun_undrawn.unknownOpcode s.wordAtPc
    simp [hf, he]
  | ok i =>
    rw [step_of_decode hs hd] at ht
    obtain ⟨u, hu, rfl⟩ := finishStep_next.1 ht
    simp only [Except.ok.injEq, ← isDisplay_iff]
    cases hi : isDisplay i with
    | true =>
      obtain ⟨hf, he⟩ := exec_redrawn hi hu
      simp [hf, he]
    | false =>
      obtain ⟨hf, he⟩ := exec_undrawn hi s.readyToRun_undrawn hu
      simp [hf, he]

end Sys2Proof.Machine

/-! ## Words that share their fixed bits with a row (30_encoding.md R84, R86) -/

namespace Sys2Proof

/-- Bits that a row fixes are the pattern's in every word the row selects. -/
theorem OpcodeRow.and_eq_of_selects {r : OpcodeRow} {w bits : Word} (h : r.selects w = true) (hb : r.mask &&& bits = bits) :
    w &&& bits = r.pattern &&& bits := by
  rw [OpcodeRow.selects, beq_iff_eq] at h
  rw [← h, BitVec.and_assoc, hb]

/-- Every row fixes nibble `a` (R84). -/
theorem opcodeTable_fixes_top : ∀ r ∈ opcodeTable, r.mask &&& 0xF000 = 0xF000 := by decide

/-- The rows whose pattern begins with 5 or 9 also fix nibble `d`, to 0. -/
theorem opcodeTable_fixes_fieldN_of_top : ∀ r ∈ opcodeTable, r.pattern &&& 0xF000 = 0x5000 ∨ r.pattern &&& 0xF000 = 0x9000 →
    r.mask &&& 0x000F = 0x000F ∧ r.pattern &&& 0x000F = 0 := by decide

theorem fieldN_eq_zero_of_and {w : Word} (h : w &&& 0x000F = 0) : fieldN w = 0 := by
  have hn : fieldN (w &&& 0x000F) = fieldN w &&& 0xF#4 := BitVec.extractLsb'_and
  rw [← and_fixed_nibble (fieldN w), ← hn, h]
  rfl

/-- With first nibble 5 or 9, only a word with last nibble 0 selects a row (R125, R126). -/
theorem decode_compareRegisters_unknown {w : Word} (hw : w &&& 0xF000 = 0x5000 ∨ w &&& 0xF000 = 0x9000)
    (hn : fieldN w ≠ 0) : decode w = .error (.unknownOpcode w) := by
  obtain ⟨r, hr, hs, -⟩ | ⟨-, hd⟩ := decode_cases w
  · rw [OpcodeRow.and_eq_of_selects hs (opcodeTable_fixes_top r hr)] at hw
    obtain ⟨hmask, hpattern⟩ := opcodeTable_fixes_fieldN_of_top r hr hw
    exact absurd (fieldN_eq_zero_of_and ((OpcodeRow.and_eq_of_selects hs hmask).trans hpattern)) hn
  · exact hd

end Sys2Proof

namespace Sys2Proof.Machine

/-- The words of a row of the table decode to what the row builds (R84, R85). -/
theorem wordsDecodeTo_of_mem {mask pattern : Word} {build : Word → Instr}
    (h : OpcodeRow.mk mask pattern build ∈ opcodeTable) : WordsDecodeTo mask pattern build :=
  fun _ hw => decode_of_selects h (beq_iff_eq.2 hw)

end Sys2Proof.Machine

/-! ## Jump and compare-and-skip instructions (41_control_flow.md R121, R123 to R126) -/

namespace Sys2Proof.Machine

/-- A 12-bit address keeps its value when it is widened to a word. -/
@[simp] theorem zextAddr_toNat (nnn : Addr12) : (zextAddr nnn).toNat = nnn.toNat :=
  BitVec.toNat_setWidth_of_le (by decide)

theorem State.onlyPc_setPc (s : State) (a : Word) : OnlyPc s (s.setPc a) := ⟨fun z _ => s.peek_setPc a z, rfl⟩

/-- A skip and the plain advance are both writes of `PC` alone (R105). -/
theorem State.onlyPc_skipIf (s : State) (c : Bool) : OnlyPc s (s.skipIf c) := by
  cases c with
  | false => exact s.onlyPc_setPc _
  | true => exact s.onlyPc_setPc _

theorem State.pcMovesBy_skipIf (s : State) (c : Bool) : PcMovesBy (if c then 4 else 2) s (s.skipIf c) := by
  cases c with
  | false => exact BitVec.toNat_add _ _
  | true => exact BitVec.toNat_add _ _

section
variable {i : Instr} {s : State} {a b : Byte}

/-- An instruction that skips on equal bytes (R123, R125). -/
theorem exec_skips_of_eq (h : exec i s = .next (s.skipIf (a == b))) :
    ∃ t, exec i s = .next t ∧ OnlyPc s t ∧ PcMovesBy (if a.toNat = b.toNat then 4 else 2) s t :=
  ⟨_, h, s.onlyPc_skipIf _, by simpa [BitVec.toNat_inj] using s.pcMovesBy_skipIf (a == b)⟩

/-- An instruction that skips on different bytes (R124, R126). -/
theorem exec_skips_of_ne (h : exec i s = .next (s.skipIf (a != b))) :
    ∃ t, exec i s = .next t ∧ OnlyPc s t ∧ PcMovesBy (if a.toNat = b.toNat then 2 else 4) s t :=
  ⟨_, h, s.onlyPc_skipIf _, by simpa [BitVec.toNat_inj] using s.pcMovesBy_skipIf (a != b)⟩

end

/-- Settles O32: both words are rows of the table, the only ones that begin with 5 or 9; both instructions are one skip on a
comparison of two registers. -/
theorem skipsCompareRegisters : Obligations.SkipsCompareRegisters :=
  ⟨wordsDecodeTo_of_mem (by simp [opcodeTable, opcodeRowsLow]),
    wordsDecodeTo_of_mem (by simp [opcodeTable, opcodeRowsAlu]),
    fun _ => decode_compareRegisters_unknown,
    fun _ _ _ => ⟨exec_skips_of_eq rfl, exec_skips_of_ne rfl⟩⟩

/-- Settles O28: the instruction is one write of `PC`. -/
theorem jumpSetsPc : Obligations.JumpSetsPc :=
  ⟨wordsDecodeTo_of_mem (by simp [opcodeTable, opcodeRowsLow]),
    fun nnn s => ⟨s.setPc (zextAddr nnn), rfl, zextAddr_toNat nnn, s.onlyPc_setPc _⟩⟩

/-- Settles O31: both instructions are one skip on a comparison of a register with the immediate. -/
theorem skipsCompareWithImmediate : Obligations.SkipsCompareWithImmediate :=
  ⟨wordsDecodeTo_of_mem (by simp [opcodeTable, opcodeRowsLow]),
    wordsDecodeTo_of_mem (by simp [opcodeTable, opcodeRowsLow]),
    fun _ _ _ => ⟨exec_skips_of_eq rfl, exec_skips_of_ne rfl⟩⟩

end Sys2Proof.Machine

/-! ## Register loads, the bitwise ALU and the random draw (42_register_alu.md R140 to R145, R150) -/

namespace Sys2Proof.Machine

/-! ### The frame of register writes -/

theorem pcMovesBy_advance {s t : State} (h : t.pc = s.pc) : PcMovesBy 2 s t.advance := by
  rw [PcMovesBy, ← h]
  exact BitVec.toNat_add _ _

section
variable {written : Nibble → Prop} {s t : State}

theorem OnlyRegsAndPc.refl : OnlyRegsAndPc written s s := ⟨fun _ _ => rfl, fun _ _ => rfl, rfl⟩

theorem OnlyRegsAndPc.setReg {x : Nibble} (b : Byte) (hx : written x) (h : OnlyRegsAndPc written s t) :
    OnlyRegsAndPc written s (t.setReg x b) := by
  obtain ⟨hregs, hmem, hrest⟩ := h
  refine ⟨fun r hr => ?_, hmem, congrArg (State.setReg · x b) hrest⟩
  have hne : r ≠ x := fun e => hr (e ▸ hx)
  rw [State.reg_setReg_other hne, hregs r hr]

theorem OnlyRegsAndPc.advance (h : OnlyRegsAndPc written s t) : OnlyRegsAndPc written s t.advance := by
  obtain ⟨hregs, hmem, hrest⟩ := h
  exact ⟨hregs, hmem, congrArg State.advance hrest⟩

end

/-! ### Instructions that write one register and go on -/

section
variable {i : Instr} {s : State} {x : Nibble} {b : Byte}

theorem exec_writes_reg (h : exec i s = .next (s.setReg x b).advance) :
    ∃ t, exec i s = .next t ∧ t.reg x = b ∧ PcMovesBy 2 s t ∧ OnlyRegsAndPc (fun r => r = x) s t :=
  ⟨_, h, s.reg_setReg_same x b, pcMovesBy_advance rfl, .advance (.setReg b rfl .refl)⟩

/-- The same, for a byte that is known bit by bit. -/
theorem exec_writes_bits {bit : Nat → Bool} (h : exec i s = .next (s.setReg x b).advance)
    (hb : ∀ k, b.getLsbD k = bit k) :
    ∃ t, exec i s = .next t ∧ PcMovesBy 2 s t ∧ OnlyRegsAndPc (fun r => r = x) s t ∧
      ∀ k, k < 8 → (t.reg x).getLsbD k = bit k := by
  obtain ⟨t, ht, hreg, hpc, hframe⟩ := exec_writes_reg h
  exact ⟨t, ht, hpc, hframe, fun k _ => hreg ▸ hb k⟩

end

/-- Settles O37: each of the three words is a row of the table; each instruction writes one register, with a byte whose bits
are those of the operation. -/
theorem bitwiseOperationsActOnEachBit : Obligations.BitwiseOperationsActOnEachBit :=
  ⟨wordsDecodeTo_of_mem (by simp [opcodeTable, opcodeRowsAlu]),
    wordsDecodeTo_of_mem (by simp [opcodeTable, opcodeRowsAlu]),
    wordsDecodeTo_of_mem (by simp [opcodeTable, opcodeRowsAlu]),
    fun _ _ _ => ⟨exec_writes_bits rfl fun _ => BitVec.getLsbD_or, exec_writes_bits rfl fun _ => BitVec.getLsbD_and,
      exec_writes_bits rfl fun _ => BitVec.getLsbD_xor⟩⟩

/-- Settles O42: the byte written is the draw and `nn`, bit by bit, and nothing is asked of the draw. -/
theorem randomIsMaskedByNn : Obligations.RandomIsMaskedByNn :=
  ⟨wordsDecodeTo_of_mem (by simp [opcodeTable, opcodeRowsHigh]),
    fun _ _ _ => exec_writes_bits rfl fun _ => BitVec.getLsbD_and⟩

/-- Settles O34: the instruction writes the immediate. -/
theorem loadImmediateWritesVx : Obligations.LoadImmediateWritesVx :=
  ⟨wordsDecodeTo_of_mem (by simp [opcodeTable, opcodeRowsLow]), fun _ _ _ => exec_writes_reg rfl⟩

/-- Settles O35: the sum of two bytes is taken modulo 256, and it is the only write to a register. -/
theorem addImmediateWritesNoFlag : Obligations.AddImmediateWritesNoFlag := by
  refine ⟨wordsDecodeTo_of_mem (by simp [opcodeTable, opcodeRowsLow]), fun x nn s => ?_⟩
  obtain ⟨t, ht, hreg, hpc, hframe⟩ := exec_writes_reg (i := .addVxNn x nn) rfl
  exact ⟨t, ht, hreg ▸ BitVec.toNat_add _ _, hpc, hframe⟩

/-- Settles O36: the instruction writes the byte of the other register, read before the write. -/
theorem copyRegisterWritesVx : Obligations.CopyRegisterWritesVx :=
  ⟨wordsDecodeTo_of_mem (by simp [opcodeTable, opcodeRowsAlu]), fun _ _ _ => exec_writes_reg rfl⟩

end Sys2Proof.Machine

/-! ## Index register and data accesses through `I` (43_index_memory.md R170, R175 to R177) -/

namespace Sys2Proof.Machine

/-- Settles O43: the instruction is one write of `I`, then the plain advance. -/
theorem loadIndexSetsI : Obligations.LoadIndexSetsI :=
  ⟨wordsDecodeTo_of_mem (by simp [opcodeTable, opcodeRowsHigh]),
    fun nnn _ => ⟨_, rfl, zextAddr_toNat nnn, pcMovesBy_advance rfl, fun _ _ => rfl, rfl⟩⟩

/-- Fewer than 4096 bytes apart from `I` up, two data accesses meet different bytes of memory (R54, R172). -/
theorem State.effectiveAddress_dataAddress_ne (s : State) {j k : Nat} (hjk : j < k) (hk : k < 4096) :
    effectiveAddress (s.dataAddress j) ≠ effectiveAddress (s.dataAddress k) := by
  unfold effectiveAddress State.dataAddress
  omega

/-- A loop that makes one access per pass, from `I` up, reports the accesses above memory in the order of the passes (R172). -/
theorem forUp_dataAddresses_events {s : State} {n : Nat} {f : Nat → State → State} {kind : AccessKind}
    (hf : ∀ k t, k < n → (f k t).events = t.events ++ boundsEvents kind [s.dataAddress k]) :
    (forUp n f s).events = s.events ++ boundsEvents kind (s.dataAddresses n) := by
  rw [forUp_events hf, State.dataAddresses, ← boundsEvents_flatMap, List.flatMap_map]

/-! ### Bytes stored from `I` up -/

/-- `for k = 0 to n - 1: MemWrite(I + k, 1, b k)`, the loop of `Fx33` and `Fx55` (R175, R176). -/
def State.storeBytes (s : State) (n : Nat) (b : Nat → Byte) : State :=
  forUp n (fun k t => t.memWrite (s.dataAddress k) (b k)) s

theorem exec_ldBVx (x : Nibble) (s : State) :
    exec (.ldBVx x) s = .next (s.storeBytes 3 (bcdDigit (s.reg x))).advance := rfl

theorem exec_ldMemVx (x : Nibble) (s : State) :
    exec (.ldMemVx x) s = .next (s.storeBytes (x.toNat + 1) (fun k => s.reg (BitVec.ofNat 4 k))).advance := rfl

theorem State.storeBytes_succ (s : State) (n : Nat) (b : Nat → Byte) :
    s.storeBytes (n + 1) b = (s.storeBytes n b).memWrite (s.dataAddress n) (b n) := rfl

theorem State.storeBytes_wf {s : State} (h : Memory.wf s.config s.mem = true) (n : Nat) (b : Nat → Byte) :
    Memory.wf (s.storeBytes n b).config (s.storeBytes n b).mem = true :=
  forUp_keeps (P := fun t => Memory.wf t.config t.mem = true) h fun _ t _ ht => t.memWrite_wf ht

/-- Every byte stored reads back: the stores after it go to other bytes. -/
theorem State.peek_storeBytes_same {s : State} (h : Memory.wf s.config s.mem = true) {n k : Nat} (hn : n ≤ 4096)
    (hk : k < n) (b : Nat → Byte) : (s.storeBytes n b).peek (effectiveAddress (s.dataAddress k)) = b k := by
  induction n with
  | zero => omega
  | succ n ih =>
    rw [State.storeBytes_succ]
    obtain hlt | rfl := Nat.lt_succ_iff_lt_or_eq.1 hk
    · rw [State.peek_memWrite_other _ (s.effectiveAddress_dataAddress_ne hlt hn), ih (by omega) hlt]
    · exact State.peek_memWrite_same _ (State.storeBytes_wf h _ _)

theorem State.keepsMemory_storeBytes (s : State) (n : Nat) (b : Nat → Byte) :
    KeepsMemory (s.StoresAt n) s (s.storeBytes n b) :=
  fun z hz => forUp_same (State.peek · z) fun k t hk => t.peek_memWrite_other fun e => hz ⟨k, hk, e⟩

theorem State.storeBytes_events (s : State) (n : Nat) (b : Nat → Byte) :
    (s.storeBytes n b).events = s.events ++ boundsEvents .write (s.dataAddresses n) :=
  forUp_dataAddresses_events fun _ t _ => congrArg State.events (t.memWrite_frame _ _)

theorem State.storeBytes_frame (s : State) (n : Nat) (b : Nat → Byte) :
    s.storeBytes n b = { s with mem := (s.storeBytes n b).mem, events := (s.storeBytes n b).events } := by
  refine forUp_keeps (P := fun t => t = { s with mem := t.mem, events := t.events }) rfl fun k t _ ht => ?_
  rw [t.memWrite_frame, ht]

/-- An instruction that stores `n` bytes from `I` up and goes on. -/
theorem exec_stores_bytes {i : Instr} {s : State} {n : Nat} {b : Nat → Byte}
    (h : exec i s = .next (s.storeBytes n b).advance) (hn : n ≤ 4096) :
    ∃ t, exec i s = .next t ∧
      (Memory.wf s.config s.mem = true → ∀ k, k < n → t.peek ((s.i.toNat + k) % 4096) = b k) ∧
      KeepsMemory (s.StoresAt n) s t ∧ t.events = s.events ++ boundsEvents .write (s.dataAddresses n) ∧
      PcMovesBy 2 s t ∧ t = { s with mem := t.mem, pc := t.pc, events := t.events } := by
  have hframe := s.storeBytes_frame n b
  exact ⟨_, h, fun hwf _ hk => State.peek_storeBytes_same hwf hn hk b, s.keepsMemory_storeBytes n b,
    s.storeBytes_events n b, pcMovesBy_advance (by rw [hframe]), by rw [hframe]; rfl⟩

/-- The digits of a byte are what R175 says, as numbers: none is too large for a byte. -/
theorem bcdDigit_toNat (b : Byte) :
    (bcdDigit b 0).toNat = b.toNat / 100 ∧ (bcdDigit b 1).toNat = b.toNat / 10 % 10 ∧
      (bcdDigit b 2).toNat = b.toNat % 10 := by
  have hb := b.isLt
  simp only [bcdDigit, BitVec.toNat_ofNat]
  omega

/-- Settles O46: the instruction stores three bytes from `I` up, the digits of the register. -/
theorem bcdStoresThreeDigits : Obligations.BcdStoresThreeDigits := by
  refine ⟨wordsDecodeTo_of_mem (by simp [opcodeTable, opcodeRowsHigh]), fun x s => ?_⟩
  obtain ⟨t, ht, hread, hrest⟩ := exec_stores_bytes (exec_ldBVx x s) (by decide)
  obtain ⟨hundreds, tens, units⟩ := bcdDigit_toNat (s.reg x)
  refine ⟨t, ht, fun hwf => ⟨?_, ?_, ?_⟩, hrest⟩
  · exact (congrArg BitVec.toNat (hread hwf 0 (by decide))).trans hundreds
  · exact (congrArg BitVec.toNat (hread hwf 1 (by decide))).trans tens
  · exact (congrArg BitVec.toNat (hread hwf 2 (by decide))).trans units

/-- Settles O47: the instruction stores `x + 1` bytes from `I` up, byte `k` the register of number `k`. -/
theorem registerDumpStoresV0ToVx : Obligations.RegisterDumpStoresV0ToVx := by
  refine ⟨wordsDecodeTo_of_mem (by simp [opcodeTable, opcodeRowsHigh]), fun x s => ?_⟩
  obtain ⟨t, ht, hread, hrest⟩ := exec_stores_bytes (exec_ldMemVx x s) (by omega)
  refine ⟨t, ht, fun hwf k hk => ?_, hrest⟩
  simpa using hread hwf k.toNat (by omega)

/-! ### Registers loaded from `I` up -/

/-- `for k = 0 to n - 1: V[k] <- MemRead(I + k, 1)`, the loop of `Fx65` (R177). -/
def State.loadRegs (s : State) (n : Nat) : State := forUp n (fun k t => t.loadReg (s.dataAddress k) k) s

theorem exec_ldVxMem (x : Nibble) (s : State) : exec (.ldVxMem x) s = .next (s.loadRegs (x.toNat + 1)).advance := rfl

theorem State.loadRegs_succ (s : State) (n : Nat) :
    s.loadRegs (n + 1) = (s.loadRegs n).loadReg (s.dataAddress n) n := rfl

@[simp] theorem State.peek_loadReg (s : State) (a k z : Nat) : (s.loadReg a k).peek z = s.peek z := by
  simp [State.loadReg]

theorem State.reg_loadReg (s : State) (a k : Nat) (r : Nibble) :
    (s.loadReg a k).reg r = if BitVec.ofNat 4 k = r then s.peek (effectiveAddress a) else s.reg r := by
  simp [State.loadReg, State.reg_setReg]

theorem State.loadReg_events (s : State) (a k : Nat) :
    (s.loadReg a k).events = s.events ++ boundsEvents .read [a] := by
  simp [State.loadReg]

/-- A load of a register changes the registers and the event list only. -/
theorem State.loadReg_frame (s : State) (a k : Nat) :
    s.loadReg a k = { s with v := (s.loadReg a k).v, events := (s.loadReg a k).events } := by
  simp only [State.loadReg, State.memRead, State.reportBounds]
  split <;> rfl

@[simp] theorem State.peek_loadRegs (s : State) (n z : Nat) : (s.loadRegs n).peek z = s.peek z :=
  forUp_same (State.peek · z) fun _ t _ => t.peek_loadReg _ _ z

/-- The loop loads the first `n` registers, each from its own byte, and leaves the others. -/
theorem State.reg_loadRegs (s : State) {n : Nat} (hn : n ≤ 16) (r : Nibble) :
    (s.loadRegs n).reg r = if r.toNat < n then s.peek (effectiveAddress (s.dataAddress r.toNat)) else s.reg r := by
  induction n with
  | zero => rfl
  | succ n ih =>
    have hr : BitVec.ofNat 4 n = r ↔ r.toNat = n := by
      rw [← BitVec.toNat_inj, BitVec.toNat_ofNat, Nat.mod_eq_of_lt (by omega), eq_comm]
    rw [State.loadRegs_succ, State.reg_loadReg, State.peek_loadRegs, ih (by omega)]
    simp only [hr, Nat.lt_succ_iff_lt_or_eq]
    by_cases h : r.toNat = n <;> simp [h]

theorem State.loadRegs_events (s : State) (n : Nat) :
    (s.loadRegs n).events = s.events ++ boundsEvents .read (s.dataAddresses n) :=
  forUp_dataAddresses_events fun _ t _ => t.loadReg_events _ _

theorem State.loadRegs_frame (s : State) (n : Nat) :
    s.loadRegs n = { s with v := (s.loadRegs n).v, events := (s.loadRegs n).events } := by
  refine forUp_keeps (P := fun t => t = { s with v := t.v, events := t.events }) rfl fun k t _ ht => ?_
  rw [t.loadReg_frame, ht]

/-- Settles O48: the instruction is the loop over the registers up to `x`, then the plain advance. -/
theorem registerLoadReadsV0ToVx : Obligations.RegisterLoadReadsV0ToVx := by
  refine ⟨wordsDecodeTo_of_mem (by simp [opcodeTable, opcodeRowsHigh]), fun x s => ?_⟩
  have hreg (r : Nibble) := s.reg_loadRegs (n := x.toNat + 1) (by omega) r
  have hframe := s.loadRegs_frame (x.toNat + 1)
  refine ⟨_, exec_ldVxMem x s, fun k hk => ?_, fun r hr => ?_, fun z _ => s.peek_loadRegs _ z, s.loadRegs_events _,
    pcMovesBy_advance (by rw [hframe]), by rw [hframe]; rfl⟩
  · exact (hreg k).trans (if_pos (by omega))
  · exact (hreg r).trans (if_neg (by omega))

end Sys2Proof.Machine

/-! ## The display (44_display.md R190) -/

namespace Sys2Proof.Machine

theorem exec_cls (s : State) : exec .cls s = .next s.clearCells.raiseRedraw.advance := rfl

/-- Settles O49: the instruction clears the cells, raises the redraw and ends with the plain advance; the clearing is the only
one of the three that touches a cell, and none looks at the framebuffer before. -/
theorem clearScreenClearsEveryCell : Obligations.ClearScreenClearsEveryCell := by
  refine ⟨wordsDecodeTo_of_mem (by simp [opcodeTable, opcodeRowsLow]), fun s => ?_⟩
  have hcell (k : Nat) : s.clearCells.raiseRedraw.advance.cell k = false := by
    rw [State.cell_advance, State.cell_raiseRedraw, State.cell_clearCells]
  have hevents : s.clearCells.raiseRedraw.advance.events = s.events ++ [.redraw] := by
    rw [State.advance_events, State.raiseRedraw_events, State.clearCells_events]
  exact ⟨_, exec_cls s, fun k _ => hcell k, rfl, hevents, pcMovesBy_advance rfl, fun _ _ => rfl, rfl⟩

end Sys2Proof.Machine

/-! ## The delay timer (45_keypad_timers.md R205) -/

namespace Sys2Proof.Machine

/-- At the end of a step that has not halted the core, both timers go down by one exactly when `TICK_PER_STEP` is true (R109). -/
theorem State.endStep_timersDown {s : State} (hs : s.status ≠ .halted) :
    TimersDown (if s.config.tickPerStep then 1 else 0) s s.endStep := by
  have hticks : s.endStep = s.ticks (if s.config.tickPerStep then 1 else 0) := by
    cases h : s.config.tickPerStep with
    | false => simp [State.endStep_cases, h]
    | true => simp [State.endStep_cases, h, hs, State.tick_eq_ticks]
  rw [hticks]
  exact ⟨countdown_toNat _ _, countdown_toNat _ _⟩

theorem exec_ldDtVx (x : Nibble) (s : State) : exec (.ldDtVx x) s = .next (s.setDelay (s.reg x)).advance := rfl

/-- Settles O55: the instruction is one write of `DT`, then the plain advance. In a whole step the write replaces what the
driver's ticks left in `DT`, so only the step's own tick comes after it. -/
theorem loadDelayTimer : Obligations.LoadDelayTimer := by
  refine ⟨wordsDecodeTo_of_mem (by simp [opcodeTable, opcodeRowsHigh]), fun x s =>
    ⟨⟨_, exec_ldDtVx x s, rfl, pcMovesBy_advance rfl, fun _ _ => rfl, rfl⟩, fun hs hd => ?_⟩⟩
  have hstep := step_of_decode hs hd
  rw [exec_ldDtVx] at hstep
  have hok : (s.readyToRun.setDelay (s.reg x)).advance.status ≠ .halted := by simp [State.readyToRun]
  obtain ⟨hdt, -⟩ := State.endStep_timersDown hok
  exact ⟨_, hstep, hdt⟩

end Sys2Proof.Machine

/-! ## The timer tick (60_exceptions.md R232, R233) -/

namespace Sys2Proof.Machine

theorem State.ticks_timersDown (s : State) (n : Nat) : TimersDown n s (s.ticks n) :=
  ⟨countdown_toNat _ _, countdown_toNat _ _⟩

/-- The ticks the model computes at once are that many single ticks, one after the other. -/
theorem State.tick_iterate (s : State) (n : Nat) : State.tick^[n] s = s.ticks n := by
  induction n with
  | zero => exact s.ticks_zero.symm
  | succ n ih => rw [Function.iterate_succ_apply', ih, State.tick_eq_ticks, State.ticks_add]

/-- Settles O24: `n` single ticks are `n` decrements at once, each with a floor of zero, and one tick is the case of one. -/
theorem tickCountsDownToZero : Obligations.TickCountsDownToZero := by
  intro s
  have hn (n : Nat) : TimersDown n s (State.tick^[n] s) := by
    rw [State.tick_iterate]
    exact s.ticks_timersDown n
  exact ⟨hn 1, rfl, hn⟩

end Sys2Proof.Machine

/-! ## Encoding and decoding undo each other (30_encoding.md R84, R85) -/

namespace Sys2Proof

/-- The encoder's word selects a row of the table that builds the instruction, for every instruction. -/
theorem encode_selects_row : ∀ i : Instr, Laws.EncodeSelectsRow.Statement i
  | .cls => Laws.EncodeSelectsRow.cls
  | .ret => Laws.EncodeSelectsRow.ret
  | .jp _ => Laws.EncodeSelectsRow.jp _
  | .call _ => Laws.EncodeSelectsRow.call _
  | .seVxNn _ _ => Laws.EncodeSelectsRow.seVxNn _ _
  | .sneVxNn _ _ => Laws.EncodeSelectsRow.sneVxNn _ _
  | .seVxVy _ _ => Laws.EncodeSelectsRow.seVxVy _ _
  | .ldVxNn _ _ => Laws.EncodeSelectsRow.ldVxNn _ _
  | .addVxNn _ _ => Laws.EncodeSelectsRow.addVxNn _ _
  | .ldVxVy _ _ => Laws.EncodeSelectsRow.ldVxVy _ _
  | .orVxVy _ _ => Laws.EncodeSelectsRow.orVxVy _ _
  | .andVxVy _ _ => Laws.EncodeSelectsRow.andVxVy _ _
  | .xorVxVy _ _ => Laws.EncodeSelectsRow.xorVxVy _ _
  | .addVxVy _ _ => Laws.EncodeSelectsRow.addVxVy _ _
  | .subVxVy _ _ => Laws.EncodeSelectsRow.subVxVy _ _
  | .shrVx _ _ => Laws.EncodeSelectsRow.shrVx _ _
  | .shlVx _ _ => Laws.EncodeSelectsRow.shlVx _ _
  | .sneVxVy _ _ => Laws.EncodeSelectsRow.sneVxVy _ _
  | .ldINnn _ => Laws.EncodeSelectsRow.ldINnn _
  | .reservedBnnn _ => Laws.EncodeSelectsRow.reservedBnnn _
  | .rnd _ _ => Laws.EncodeSelectsRow.rnd _ _
  | .drw _ _ _ => Laws.EncodeSelectsRow.drw _ _ _
  | .skp _ => Laws.EncodeSelectsRow.skp _
  | .sknp _ => Laws.EncodeSelectsRow.sknp _
  | .ldVxDt _ => Laws.EncodeSelectsRow.ldVxDt _
  | .ldVxK _ => Laws.EncodeSelectsRow.ldVxK _
  | .ldDtVx _ => Laws.EncodeSelectsRow.ldDtVx _
  | .ldStVx _ => Laws.EncodeSelectsRow.ldStVx _
  | .addIVx _ => Laws.EncodeSelectsRow.addIVx _
  | .ldFVx _ => Laws.EncodeSelectsRow.ldFVx _
  | .ldBVx _ => Laws.EncodeSelectsRow.ldBVx _
  | .ldMemVx _ => Laws.EncodeSelectsRow.ldMemVx _
  | .ldVxMem _ => Laws.EncodeSelectsRow.ldVxMem _

@[simp] theorem decode_encode (i : Instr) : decode (encode i) = .ok i :=
  decode_eq_ok_iff.2 (encode_selects_row i)

/-! ### A selected word, put together again from its fields, one lemma per format of R82 -/

section
variable {w p : Word} {build : Word → Instr}

/-- The word is its nibble `a` and `nnn`. -/
theorem top_append_fieldNnn (w : Word) : w.extractLsb' 12 4 ++ fieldNnn w = w :=
  BitVec.extractLsb'_append_extractLsb' (w := 4) (len := 12) (x := w)

/-- The word is its nibbles `a` and `x` and `nn`. -/
theorem top_append_fieldX_append_fieldNn (w : Word) : w.extractLsb' 12 4 ++ fieldX w ++ fieldNn w = w := by
  rw [fieldX, BitVec.extractLsb'_append_extractLsb'_eq_extractLsb' (start₁ := 8) (len₁ := 4) rfl]
  exact BitVec.extractLsb'_append_extractLsb' (w := 8) (len := 8) (x := w)

theorem append_fieldNnn_of_selects (hp : p &&& 0xF000 = p) (h : (OpcodeRow.mk 0xF000 p build).selects w = true) :
    p.extractLsb' 12 4 ++ fieldNnn w = w := by
  have ha := (selects_iff_top hp).1 h
  rw [← BitVec.eq_of_toNat_eq ha, top_append_fieldNnn]

theorem append_fieldX_fieldNn_of_selects (hp : p &&& 0xF000 = p)
    (h : (OpcodeRow.mk 0xF000 p build).selects w = true) : p.extractLsb' 12 4 ++ fieldX w ++ fieldNn w = w := by
  have ha := (selects_iff_top hp).1 h
  rw [← BitVec.eq_of_toNat_eq ha, top_append_fieldX_append_fieldNn]

theorem append_fieldX_fieldY_fieldN_of_selects (hp : p &&& 0xF000 = p)
    (h : (OpcodeRow.mk 0xF000 p build).selects w = true) :
    p.extractLsb' 12 4 ++ fieldX w ++ fieldY w ++ fieldN w = w := by
  have ha := (selects_iff_top hp).1 h
  rw [← BitVec.eq_of_toNat_eq ha, word_nibbles]

theorem append_fieldX_fieldY_of_selects (hp : p &&& 0xF00F = p)
    (h : (OpcodeRow.mk 0xF00F p build).selects w = true) :
    p.extractLsb' 12 4 ++ fieldX w ++ fieldY w ++ p.extractLsb' 0 4 = w := by
  obtain ⟨ha, hd⟩ := (selects_iff_top_fieldN hp).1 h
  rw [← BitVec.eq_of_toNat_eq ha, ← BitVec.eq_of_toNat_eq hd, word_nibbles]

theorem append_fieldX_of_selects (hp : p &&& 0xF0FF = p) (h : (OpcodeRow.mk 0xF0FF p build).selects w = true) :
    p.extractLsb' 12 4 ++ fieldX w ++ p.extractLsb' 0 8 = w := by
  obtain ⟨ha, hlow⟩ := (selects_iff_top_fieldNn hp).1 h
  rw [← BitVec.eq_of_toNat_eq ha, ← BitVec.eq_of_toNat_eq hlow, top_append_fieldX_append_fieldNn]

theorem pattern_eq_of_selects (h : (OpcodeRow.mk 0xFFFF p build).selects w = true) : p = w :=
  (selects_iff_top_eq.1 h).2.symm

end

/-- Every word a row selects is the encoder's word of what the row builds: the fixed bits are the pattern's, every other bit
is in a field (R82, R84). -/
theorem encode_build_of_selects {r : OpcodeRow} (hr : r ∈ opcodeTable) {w : Word} (h : r.selects w = true) :
    encode (r.build w) = w := by
  have hlow : ∀ r ∈ opcodeRowsLow, r.selects w = true → encode (r.build w) = w := by
    simp only [opcodeRowsLow, List.forall_mem_cons, List.not_mem_nil, false_implies, implies_true, and_true]
    exact ⟨pattern_eq_of_selects, pattern_eq_of_selects, append_fieldNnn_of_selects rfl, append_fieldNnn_of_selects rfl,
      append_fieldX_fieldNn_of_selects rfl, append_fieldX_fieldNn_of_selects rfl, append_fieldX_fieldY_of_selects rfl,
      append_fieldX_fieldNn_of_selects rfl, append_fieldX_fieldNn_of_selects rfl⟩
  have halu : ∀ r ∈ opcodeRowsAlu, r.selects w = true → encode (r.build w) = w := by
    simp only [opcodeRowsAlu, List.forall_mem_cons, List.not_mem_nil, false_implies, implies_true, and_true]
    refine ⟨?_, ?_, ?_, ?_, ?_, ?_, ?_, ?_, ?_⟩ <;> exact append_fieldX_fieldY_of_selects rfl
  have hhigh : ∀ r ∈ opcodeRowsHigh, r.selects w = true → encode (r.build w) = w := by
    simp only [opcodeRowsHigh, List.forall_mem_cons, List.not_mem_nil, false_implies, implies_true, and_true]
    refine ⟨append_fieldNnn_of_selects rfl, append_fieldNnn_of_selects rfl, append_fieldX_fieldNn_of_selects rfl,
      append_fieldX_fieldY_fieldN_of_selects rfl, ?_, ?_, ?_, ?_, ?_, ?_, ?_, ?_, ?_, ?_, ?_⟩ <;>
      exact append_fieldX_of_selects rfl
  simp only [opcodeTable, List.mem_append] at hr
  obtain (hr | hr) | hr := hr
  · exact hlow r hr h
  · exact halu r hr h
  · exact hhigh r hr h

end Sys2Proof

namespace Sys2Proof.Machine

/-- Settles O1: the encoder's word selects the instruction's own row, which reads every field back; its two bytes join to
that word again. -/
theorem decodeOfEncodeGivesInstruction : Obligations.DecodeOfEncodeGivesInstruction := by
  intro i rest
  refine ⟨decode_encode i, ?_⟩
  simp only [encodeBytes, wordBytes, List.cons_append, List.nil_append, decodeBytes, joinBytes_bytes, decode_encode]

/-- Settles O2: a word that decodes selects a row, and the row's fields and fixed bits are all of the word. -/
theorem encodeOfDecodeGivesWord : Obligations.EncodeOfDecodeGivesWord := by
  intro w i h
  obtain ⟨r, hr, hw, rfl⟩ := decode_eq_ok_iff.1 h
  exact encode_build_of_selects hr hw

/-- Settles O5: each word is the encoder's word of its instruction. -/
theorem sampleWordsDecode : Obligations.SampleWordsDecode :=
  ⟨decode_encode .cls, decode_encode (.call 0xABC), decode_encode (.subVxVy 1 2), decode_encode (.ldMemVx 3),
    decode_encode (.drw 1 2 5), decode_encode (.skp 5)⟩

/-! ### The unknown words (R86) -/

/-- A word is unknown when the rows it selects build no instruction of the 32: it selects none, or that of `Bnnn`. -/
theorem unknown_iff_rows {w : Word} :
    (∀ i, decode w = .ok i → i.wellFormed = false) ↔
      ∀ r ∈ opcodeTable, r.selects w = true → (r.build w).wellFormed = false := by
  simp only [decode_eq_ok_iff]
  constructor
  · exact fun h r hr hw => h _ ⟨r, hr, hw, rfl⟩
  · rintro h i ⟨r, hr, hw, rfl⟩
    exact h r hr hw

/-- Settles O4: each row of the opcode table asks for one value of nibble `a` and for what the list looks at below it. For each
of the 16 values of nibble `a`, the list excludes what the rows that are left ask for. -/
theorem unknownWordsAreThoseListed : Obligations.UnknownWordsAreThoseListed := by
  intro w
  rw [unknown_iff_rows]
  simp only [opcodeTable, opcodeRowsLow, opcodeRowsAlu, opcodeRowsHigh, List.cons_append, List.nil_append,
    List.forall_mem_cons, List.not_mem_nil, false_implies, implies_true, and_true, Instr.wellFormed, Bool.true_eq_false,
    imp_false]
  simp (disch := decide) only [selects_iff_top, selects_iff_top_fieldN, selects_iff_top_fieldNn, selects_iff_top_eq]
  simp only [BitVec.ofNat_eq_ofNat, BitVec.reduceExtractLsb', BitVec.reduceToNat]
  have ha := (w.extractLsb' 12 4).isLt
  have hd := (fieldN w).isLt
  generalize (w.extractLsb' 12 4).toNat = a at *
  generalize (fieldN w).toNat = d at *
  match a, ha with
  | 8, _ =>
    simp only [OfNat.ofNat_ne_zero, false_and, not_false_eq_true, OfNat.ofNat_ne_one, Nat.reduceEqDiff,
      Nat.succ_ne_self, true_and, and_self, and_true, ne_eq, List.mem_cons, List.not_mem_nil, or_false, not_or, or_self,
      false_or]
    omega
  | 0, _ | 1, _ | 2, _ | 3, _ | 4, _ | 5, _ | 6, _ | 7, _ | 9, _ | 10, _ | 11, _ | 12, _ | 13, _ | 14, _ | 15, _ => simp
  | _ + 16, ha => omega

end Sys2Proof.Machine

/-! ## Sprites (44_display.md R191 to R193) -/

namespace Sys2Proof.Machine

/-- A loop carries what its passes carry from one to the next. -/
theorem forUp_induct {P : Nat → State → Prop} {n : Nat} {f : Nat → State → State} {s : State} (h0 : P 0 s)
    (hf : ∀ k t, k < n → P k t → P (k + 1) (f k t)) : P n (forUp n f s) := by
  induction n with
  | zero => exact h0
  | succ n ih => exact hf n _ (by omega) (ih fun k t hk => hf k t (by omega))

/-- `for r = 0 to n - 1`: the rows of a sprite at `I`, drawn at `(x0, y0)`, the loop of `Dxyn` (R191). -/
def State.drawRows (s : State) (x0 y0 n : Nat) : State :=
  forUp n (fun r t => t.drawRow (s.dataAddress r) x0 y0 r) s

theorem exec_drw (x y n : Nibble) (s : State) :
    exec (.drw x y n) s =
      .next ((s.setReg vf 0).drawRows ((s.reg x).toNat % 64) ((s.reg y).toNat % 32) n.toNat).raiseRedraw.advance := rfl

/-! ### What drawing leaves alone -/

/-- A pixel changes VF and the framebuffer only. -/
theorem State.drawPixel_frame (s : State) (x0 y0 r : Nat) (row : Byte) (col : Nat) :
    s.drawPixel x0 y0 r row col =
      { s with v := (s.drawPixel x0 y0 r row col).v, fb := (s.drawPixel x0 y0 r row col).fb } := by
  unfold State.drawPixel
  split
  · dsimp only
    split <;> rfl
  · rfl

theorem State.reg_drawPixel_other (s : State) (x0 y0 r : Nat) (row : Byte) (col : Nat) {z : Nibble} (hz : z ≠ vf) :
    (s.drawPixel x0 y0 r row col).reg z = s.reg z := by
  unfold State.drawPixel
  split
  · dsimp only
    split
    · rw [State.reg_toggleCell, State.reg_setReg_other hz]
    · rw [State.reg_toggleCell]
  · rfl

theorem State.drawRow_eq (s : State) (a x0 y0 r : Nat) :
    s.drawRow a x0 y0 r =
      forUp 8 (fun col t => t.drawPixel x0 y0 r (s.peek (effectiveAddress a)) col) (s.reportBounds a .read) := rfl

/-- A row changes VF, the framebuffer and, by the report of its one access, the event list. -/
theorem State.drawRow_frame (s : State) (a x0 y0 r : Nat) :
    s.drawRow a x0 y0 r =
      { s with v := (s.drawRow a x0 y0 r).v, fb := (s.drawRow a x0 y0 r).fb
               events := s.events ++ boundsEvents .read [a] } := by
  rw [← s.reportBounds_events a .read]
  refine forUp_keeps (P := fun t => t = { s with v := t.v, fb := t.fb, events := (s.reportBounds a .read).events }) ?_
    fun _ t _ ht => ?_
  · simp only [State.memRead_snd, State.reportBounds]
    split <;> rfl
  · rw [t.drawPixel_frame, ht]

theorem State.reg_drawRow_other (s : State) (a x0 y0 r : Nat) {z : Nibble} (hz : z ≠ vf) :
    (s.drawRow a x0 y0 r).reg z = s.reg z :=
  (forUp_same (State.reg · z) fun _ t _ => t.reg_drawPixel_other _ _ _ _ _ hz).trans (s.reg_reportBounds _ _ _)

theorem State.drawRows_frame (s : State) (x0 y0 n : Nat) :
    s.drawRows x0 y0 n =
      { s with v := (s.drawRows x0 y0 n).v, fb := (s.drawRows x0 y0 n).fb, events := (s.drawRows x0 y0 n).events } := by
  refine forUp_keeps (P := fun t => t = { s with v := t.v, fb := t.fb, events := t.events }) rfl fun _ t _ ht => ?_
  rw [t.drawRow_frame, ht]

theorem State.drawRows_events (s : State) (x0 y0 n : Nat) :
    (s.drawRows x0 y0 n).events = s.events ++ boundsEvents .read (s.dataAddresses n) :=
  forUp_dataAddresses_events fun _ t _ => congrArg State.events (t.drawRow_frame _ _ _ _)

theorem State.reg_drawRows_other (s : State) (x0 y0 n : Nat) {z : Nibble} (hz : z ≠ vf) :
    (s.drawRows x0 y0 n).reg z = s.reg z :=
  forUp_same (State.reg · z) fun _ t _ => t.reg_drawRow_other _ _ _ _ hz

/-! ### Cells as the sprite counts them -/

/-- The sprite column that lies on screen column `px` (R58). -/
def spriteCol (x0 px : Nat) : Nat := (px + 64 - x0) % 64

/-- The sprite row that lies on screen row `py` (R58). -/
def spriteRow (y0 py : Nat) : Nat := (py + 32 - y0) % 32

/-- A cell is that of one sprite row and column only: both coordinates wrap once around the screen. -/
theorem eq_cellIndex_iff {x0 y0 px py r col : Nat} (hx : x0 < 64) (hy : y0 < 32) (hpx : px < 64) (hpy : py < 32)
    (hr : r < 32) (hcol : col < 64) :
    px + 64 * py = cellIndex x0 y0 r col ↔ spriteRow y0 py = r ∧ spriteCol x0 px = col := by
  unfold cellIndex spriteRow spriteCol
  omega

/-- `t` is `s` with the bits of a sprite at `(x0, y0)` drawn, `bit r col` the bit of row `r` and column `col`: their cells are
flipped, and VF says whether one of them was 1 (R191, R192). -/
structure Drawn (x0 y0 : Nat) (bit : Nat → Nat → Bool) (s t : State) : Prop where
  cell : ∀ px py, px < 64 → py < 32 →
    t.cell (px + 64 * py) = (s.cell (px + 64 * py) != bit (spriteRow y0 py) (spriteCol x0 px))
  flag :
    (t.reg vf = 1 ∧ ∃ px py, px < 64 ∧ py < 32 ∧ bit (spriteRow y0 py) (spriteCol x0 px) = true ∧
      s.cell (px + 64 * py) = true) ∨
    (t.reg vf = 0 ∧ ∀ px py, px < 64 → py < 32 → bit (spriteRow y0 py) (spriteCol x0 px) = true →
      s.cell (px + 64 * py) = false)

/-- With no bit drawn, VF is cleared. -/
theorem Drawn.none (x0 y0 : Nat) (s : State) : Drawn x0 y0 (fun _ _ => false) s (s.setReg vf 0) where
  cell := by simp
  flag := by simp

/-- A pixel flips its cell when its bit is 1, and no other cell. -/
theorem State.cell_drawPixel (s : State) (x0 y0 r : Nat) (row : Byte) (col : Nat) {z : Nat} (hz : z < 2048) :
    (s.drawPixel x0 y0 r row col).cell z =
      (s.cell z != (decide (z = cellIndex x0 y0 r col) && row.getLsbD (7 - col))) := by
  unfold State.drawPixel
  split
  · rename_i hbit
    dsimp only
    rw [State.cell_toggleCell _ hz, apply_ite (State.cell · z), State.cell_setReg, ite_self, hbit, Bool.and_true]
    by_cases h : z = cellIndex x0 y0 r col <;> simp [h]
  · simp_all

/-- A pixel sets VF when its bit is 1 on a cell that is 1 (R192). -/
theorem State.reg_vf_drawPixel (s : State) (x0 y0 r : Nat) (row : Byte) (col : Nat) :
    (s.drawPixel x0 y0 r row col).reg vf =
      if row.getLsbD (7 - col) = true ∧ s.cell (cellIndex x0 y0 r col) = true then 1 else s.reg vf := by
  unfold State.drawPixel
  split
  · rename_i hbit
    dsimp only
    rw [State.reg_toggleCell, apply_ite (State.reg · vf), State.reg_setReg_same]
    simp only [hbit, true_and]
  · simp_all

/-- Every pair of a sprite row and a sprite column lies on some cell of the screen. -/
theorem exists_eq_cellIndex (x0 y0 r col : Nat) : ∃ px py, px < 64 ∧ py < 32 ∧ px + 64 * py = cellIndex x0 y0 r col :=
  ⟨(x0 + col) % 64, (y0 + r) % 32, by omega, by omega, by unfold cellIndex; omega⟩

/-- A pixel whose bit is not drawn yet is drawn beside the others: its cell still is what it was in `s`. -/
theorem Drawn.drawPixel {x0 y0 r col : Nat} {bit : Nat → Nat → Bool} {s t : State} {row : Byte} (h : Drawn x0 y0 bit s t)
    (hx : x0 < 64) (hy : y0 < 32) (hr : r < 32) (hcol : col < 64) (hnew : bit r col = false) :
    Drawn x0 y0 (fun r' c => bit r' c || (decide (r' = r ∧ c = col) && row.getLsbD (7 - col))) s
      (t.drawPixel x0 y0 r row col) := by
  obtain ⟨hcell, hflag⟩ := h
  have hiff {px py : Nat} (hpx : px < 64) (hpy : py < 32) := eq_cellIndex_iff hx hy hpx hpy hr hcol
  obtain ⟨kx, ky, hkx, hky, hk⟩ := exists_eq_cellIndex x0 y0 r col
  obtain ⟨hkr, hkc⟩ := (hiff hkx hky).1 hk
  have hsame : t.cell (kx + 64 * ky) = s.cell (kx + 64 * ky) := by
    rw [hcell kx ky hkx hky, hkr, hkc, hnew, Bool.bne_false]
  constructor
  case cell =>
    intro px py hpx hpy
    rw [State.cell_drawPixel _ _ _ _ _ _ (by omega), hcell px py hpx hpy]
    simp only [hiff hpx hpy]
    by_cases hp : spriteRow y0 py = r ∧ spriteCol x0 px = col
    · obtain ⟨rfl, rfl⟩ := hp
      simp [hnew]
    · simp [hp]
  case flag =>
    rw [State.reg_vf_drawPixel, ← hk, hsame]
    by_cases hhit : row.getLsbD (7 - col) = true ∧ s.cell (kx + 64 * ky) = true
    · exact .inl ⟨if_pos hhit, kx, ky, hkx, hky, by simp [hkr, hkc, hhit.1], hhit.2⟩
    · rw [if_neg hhit]
      refine hflag.imp (fun ⟨hv, px, py, hpx, hpy, hbit, hset⟩ => ⟨hv, px, py, hpx, hpy, by simp [hbit], hset⟩)
        fun ⟨hv, hclear⟩ => ⟨hv, fun px py hpx hpy hbit => ?_⟩
      obtain hold | hpixel := Bool.or_eq_true _ _ ▸ hbit
      · exact hclear px py hpx hpy hold
      · obtain ⟨hp, hrow⟩ := Bool.and_eq_true _ _ ▸ hpixel
        rw [(hiff hpx hpy).2 (of_decide_eq_true hp), ← hk]
        exact Bool.eq_false_iff.2 fun hset => hhit ⟨hrow, hset⟩

/-! ### The loops over rows and columns -/

/-- The bit of row `r` and column `col` of the sprite at `I` (R191). -/
def State.spriteBit (s : State) (r col : Nat) : Bool := (s.peek (effectiveAddress (s.dataAddress r))).getLsbD (7 - col)

/-- The sprite's bits before column `n` of row `k`, in the order of the loops (R191). -/
def State.bitsBefore (s : State) (k n r col : Nat) : Bool :=
  decide (r < k ∧ col < 8 ∨ r = k ∧ col < n) && s.spriteBit r col

theorem State.bitsBefore_zero (s : State) : s.bitsBefore 0 0 = fun _ _ => false := by
  funext r col
  simp [State.bitsBefore]

/-- After the eighth column comes the next row. -/
theorem State.bitsBefore_row (s : State) (k : Nat) : s.bitsBefore (k + 1) 0 = s.bitsBefore k 8 := by
  funext r col
  have : (r < k + 1 ∧ col < 8 ∨ r = k + 1 ∧ col < 0) ↔ (r < k ∧ col < 8 ∨ r = k ∧ col < 8) := by omega
  simp only [State.bitsBefore, this]

theorem State.bitsBefore_col (s : State) (k : Nat) {n : Nat} :
    s.bitsBefore k (n + 1) =
      fun r col => s.bitsBefore k n r col || (decide (r = k ∧ col = n) && s.spriteBit k n) := by
  funext r col
  by_cases hp : r = k ∧ col = n
  · obtain ⟨rfl, rfl⟩ := hp
    simp [State.bitsBefore]
  · have : (r < k ∧ col < 8 ∨ r = k ∧ col < n + 1) ↔ (r < k ∧ col < 8 ∨ r = k ∧ col < n) := by omega
    simp only [State.bitsBefore, this, hp, decide_false, Bool.false_and, Bool.or_false]

theorem Drawn.drawRow {x0 y0 r : Nat} {s t : State} (h : Drawn x0 y0 (s.bitsBefore r 0) s t) (hx : x0 < 64) (hy : y0 < 32)
    (hr : r < 32) (hmem : ∀ z, t.peek z = s.peek z) :
    Drawn x0 y0 (s.bitsBefore (r + 1) 0) s (t.drawRow (s.dataAddress r) x0 y0 r) := by
  rw [s.bitsBefore_row, t.drawRow_eq, hmem]
  refine forUp_induct (P := fun n u => Drawn x0 y0 (s.bitsBefore r n) s u) ?_ fun col u hcol hu => ?_
  · obtain ⟨hcell, hflag⟩ := h
    exact ⟨by simpa using hcell, by simpa using hflag⟩
  · rw [s.bitsBefore_col]
    exact hu.drawPixel hx hy hr (by omega) (by simp [State.bitsBefore])

@[simp] theorem State.peek_drawRow (s : State) (a x0 y0 r z : Nat) : (s.drawRow a x0 y0 r).peek z = s.peek z := by
  rw [s.drawRow_frame]; rfl

theorem State.drawRows_drawn (s : State) {x0 y0 n : Nat} (hx : x0 < 64) (hy : y0 < 32) (hn : n ≤ 32) :
    Drawn x0 y0 (s.bitsBefore n 0) s ((s.setReg vf 0).drawRows x0 y0 n) := by
  suffices h : Drawn x0 y0 (s.bitsBefore n 0) s ((s.setReg vf 0).drawRows x0 y0 n) ∧
      ∀ z, ((s.setReg vf 0).drawRows x0 y0 n).peek z = s.peek z from h.1
  refine forUp_induct (P := fun k t => Drawn x0 y0 (s.bitsBefore k 0) s t ∧ ∀ z, t.peek z = s.peek z) ?_
    fun r t hr ⟨ht, hmem⟩ => ?_
  · exact ⟨s.bitsBefore_zero ▸ .none x0 y0 s, s.peek_setReg _ _⟩
  · exact ⟨ht.drawRow hx hy (by omega) hmem, fun z => (t.peek_drawRow _ _ _ _ z).trans (hmem z)⟩

/-- The bits of the whole sprite, on a cell, are what the statements call covering it. -/
theorem State.spriteCovers_eq (s : State) (x y n : Nibble) (px py : Nat) :
    s.spriteCovers x y n px py =
      s.bitsBefore n.toNat 0 (spriteRow ((s.reg y).toNat % 32) py) (spriteCol ((s.reg x).toNat % 64) px) := by
  simp only [State.spriteCovers, State.bitsBefore, State.spriteBit, spriteRow, spriteCol, Nat.not_lt_zero, and_false,
    or_false, Bool.decide_and]
  rw [Bool.and_comm (decide _) (decide _)]

/-- Settles O50: pixel by pixel, the bits drawn so far are the cells flipped so far; no two bits of a sprite meet on one cell,
so each finds its cell as it was before the instruction. -/
theorem drawFlipsCoveredCells : Obligations.DrawFlipsCoveredCells := by
  refine ⟨wordsDecodeTo_of_mem (by simp [opcodeTable, opcodeRowsHigh]), fun x y n s => ?_⟩
  have hn := n.isLt
  obtain ⟨hcell, hflag⟩ := s.drawRows_drawn (x0 := (s.reg x).toNat % 64) (y0 := (s.reg y).toNat % 32) (n := n.toNat)
    (by omega) (by omega) (by omega)
  simp only [← State.spriteCovers_eq] at hcell hflag
  have hframe := (s.setReg vf 0).drawRows_frame ((s.reg x).toNat % 64) ((s.reg y).toNat % 32) n.toNat
  refine ⟨_, exec_drw x y n s, hcell, hflag, fun r hr => ?_, fun z _ => ?_, rfl, ?_, pcMovesBy_advance ?_, ?_⟩
  · exact (State.reg_drawRows_other _ _ _ _ hr).trans (State.reg_setReg_other hr)
  · rw [hframe]; rfl
  · exact congrArg (· ++ [Event.redraw]) (State.drawRows_events _ _ _ _)
  · rw [hframe]; rfl
  · rw [hframe]; rfl

/-- Two framebuffers that show the same cells are the same. -/
theorem State.fb_ext {s t : State} (h : ∀ px py, px < 64 → py < 32 → t.cell (px + 64 * py) = s.cell (px + 64 * py)) :
    t.fb = s.fb := by
  refine BitVec.eq_of_getLsbD_eq fun k hk => ?_
  have := h (k % 64) (k / 64) (by omega) (by omega)
  rwa [Nat.mod_add_div] at this

/-- Settles O51: the second draw has the sprite of the first, so it flips each cell back, and finds a cell at 1 under a 1 bit
exactly where the first draw found it at 0. -/
theorem drawTwiceRestoresFramebuffer : Obligations.DrawTwiceRestoresFramebuffer := by
  intro x y n s t ht hx hy
  obtain ⟨-, hdraw⟩ := drawFlipsCoveredCells
  obtain ⟨t', ht', hcell, -, -, hmem, -, -, -, hframe⟩ := hdraw x y n s
  obtain rfl : t' = t := by cases ht.symm.trans ht'; rfl
  obtain ⟨u, hu, hcell', hflag, -⟩ := hdraw x y n t'
  have hi : t'.i = s.i := by rw [hframe]
  have hcovers (px py : Nat) : t'.spriteCovers x y n px py = s.spriteCovers x y n px py := by
    simp only [State.spriteCovers, hx, hy, State.dataAddress, hi, hmem _ not_false]
  simp only [hcovers] at hcell' hflag
  refine ⟨u, hu, State.fb_ext fun px py hpx hpy => ?_, ?_⟩
  · rw [hcell' px py hpx hpy, hcell px py hpx hpy, Bool.bne_assoc, bne_self_eq_false, Bool.bne_false]
  · have hflip {px py : Nat} (hpx : px < 64) (hpy : py < 32) (hcov : s.spriteCovers x y n px py = true) :
        t'.cell (px + 64 * py) = !s.cell (px + 64 * py) := by
      rw [hcell px py hpx hpy, hcov, Bool.bne_true]
    obtain ⟨hv, px, py, hpx, hpy, hcov, hset⟩ | ⟨hv, hclear⟩ := hflag
    · exact iff_of_true hv ⟨px, py, hpx, hpy, hcov, by simpa [hflip hpx hpy hcov] using hset⟩
    · refine iff_of_false (by rw [hv]; decide) fun ⟨px, py, hpx, hpy, hcov, hzero⟩ => ?_
      have := hclear px py hpx hpy hcov
      rw [hflip hpx hpy hcov, hzero] at this
      cases this

end Sys2Proof.Machine

/-! ## Call and return (41_control_flow.md R120, R122) -/

namespace Sys2Proof.Machine

variable {s : State}

theorem exec_ret_of_zero (h : s.sp.toNat = 0) : exec .ret s = .next (s.raiseFatal .stackUnderflow) := if_pos h

theorem exec_ret_of_pos (h0 : 0 < s.sp.toNat) (h : s.sp.toNat ≤ 16) :
    exec .ret s = .next (s.pop.setPc (s.slot (s.sp.toNat - 1))) :=
  (if_neg (by omega)).trans (if_pos h)

theorem exec_ret_of_gt (h : 16 < s.sp.toNat) : exec .ret s = .fault .stackPointerIllegal :=
  (if_neg (by omega)).trans (if_neg (by omega))

theorem exec_call_of_full (nnn : Addr12) (h : s.sp.toNat = 16) :
    exec (.call nnn) s = .next (s.raiseFatal .stackOverflow) := if_pos h

theorem exec_call_of_lt (nnn : Addr12) (h : s.sp.toNat < 16) :
    exec (.call nnn) s = .next ((s.push (s.pc + 2)).setPc (zextAddr nnn)) :=
  (if_neg (by omega)).trans (if_pos h)

theorem exec_call_of_gt (nnn : Addr12) (h : 16 < s.sp.toNat) : exec (.call nnn) s = .fault .stackPointerIllegal :=
  (if_neg (by omega)).trans (if_neg (by omega))

/-- What a return that gives a next state has done. -/
theorem exec_ret_next {u : State} (h : exec .ret s = .next u) :
    s.sp.toNat = 0 ∧ u = s.raiseFatal .stackUnderflow ∨
      0 < s.sp.toNat ∧ s.sp.toNat ≤ 16 ∧ u = s.pop.setPc (s.slot (s.sp.toNat - 1)) := by
  obtain h0 | hpos := Nat.eq_zero_or_pos s.sp.toNat
  · cases (exec_ret_of_zero h0).symm.trans h
    exact .inl ⟨h0, rfl⟩
  · obtain hle | hgt := le_or_gt s.sp.toNat 16
    · cases (exec_ret_of_pos hpos hle).symm.trans h
      exact .inr ⟨hpos, hle, rfl⟩
    · cases (exec_ret_of_gt hgt).symm.trans h

/-- What a call that gives a next state has done. -/
theorem exec_call_next {nnn : Addr12} {u : State} (h : exec (.call nnn) s = .next u) :
    s.sp.toNat = 16 ∧ u = s.raiseFatal .stackOverflow ∨
      s.sp.toNat < 16 ∧ u = (s.push (s.pc + 2)).setPc (zextAddr nnn) := by
  obtain hlt | heq | hgt := Nat.lt_trichotomy s.sp.toNat 16
  · cases (exec_call_of_lt nnn hlt).symm.trans h
    exact .inr ⟨hlt, rfl⟩
  · cases (exec_call_of_full nnn heq).symm.trans h
    exact .inl ⟨heq, rfl⟩
  · cases (exec_call_of_gt nnn hgt).symm.trans h

/-- A pop from a stack that is not empty lowers `SP` by one. -/
theorem State.pop_sp_toNat (h : 0 < s.sp.toNat) : s.pop.sp.toNat = s.sp.toNat - 1 := by
  rw [State.pop_sp]
  bv_omega

/-- A push on a stack that is not full raises `SP` by one. -/
theorem State.push_sp_toNat (a : Word) (h : s.sp.toNat < 16) : (s.push a).sp.toNat = s.sp.toNat + 1 := by
  rw [State.push_sp]
  bv_omega

theorem State.slot_push_same (a : Word) (h : s.sp.toNat < 16) : (s.push a).slot s.sp.toNat = a := by
  simp [State.slot, State.push, h]

theorem State.slot_push_other (a : Word) {k : Nat} (hk : k ≠ s.sp.toNat) : (s.push a).slot k = s.slot k := by
  simp [State.slot, State.push, hk.symm]

/-- Settles O27: the three clauses are the three branches of the instruction. -/
theorem returnPopsAddress : Obligations.ReturnPopsAddress :=
  ⟨wordsDecodeTo_of_mem (by simp [opcodeTable, opcodeRowsLow]), fun _ =>
    ⟨fun h1 h16 => ⟨_, exec_ret_of_pos h1 h16, State.pop_sp_toNat h1, rfl, fun _ => rfl, fun _ _ => rfl, rfl⟩,
      fun h0 => ⟨_, exec_ret_of_zero h0, rfl⟩, exec_ret_of_gt⟩⟩

/-- Settles O29: the three clauses are the three branches of the instruction; the push writes the slot that `SP` names and
no other. -/
theorem callPushesReturnAddress : Obligations.CallPushesReturnAddress := by
  refine ⟨wordsDecodeTo_of_mem (by simp [opcodeTable, opcodeRowsLow]), fun nnn s =>
    ⟨fun h => ?_, fun h => ⟨_, exec_call_of_full nnn h, rfl⟩, exec_call_of_gt nnn⟩⟩
  refine ⟨_, exec_call_of_lt nnn h, ?_, fun k hk => ?_, State.push_sp_toNat (s.pc + 2) h, zextAddr_toNat nnn,
    fun _ _ => rfl, rfl⟩
  · rw [State.slot_setPc, State.slot_push_same _ h]
    exact BitVec.toNat_add _ _
  · rw [State.slot_setPc, State.slot_push_other _ hk]

/-- Settles O30: the return pops the slot the call has pushed, whatever happened to the rest of the state. -/
theorem callThenReturnResumes : Obligations.CallThenReturnResumes := by
  intro nnn s h
  refine ⟨_, exec_call_of_lt nnn h, fun t' hsp hslot => ?_⟩
  have hsp' : t'.sp.toNat = s.sp.toNat + 1 := by
    rw [hsp]
    exact State.push_sp_toNat (s.pc + 2) h
  have hpos : 0 < t'.sp.toNat := by omega
  refine ⟨_, exec_ret_of_pos hpos (by omega), ?_, ?_⟩
  · rw [PcMovesBy, State.setPc_pc, hsp', Nat.add_sub_cancel, hslot, State.slot_setPc, State.slot_push_same _ h]
    exact BitVec.toNat_add _ _
  · apply BitVec.eq_of_toNat_eq
    rw [State.setPc_sp, State.pop_sp_toNat hpos, hsp', Nat.add_sub_cancel]

end Sys2Proof.Machine

/-! ## What each instruction can change (10_state.md R22 to R31, 20_memory.md R63) -/

namespace Sys2Proof.Machine

/-- Settles O20: call and return by their branches, the loops by their frames; every other instruction is a chain of
operations whose effect on each field is a law of the operation. -/
theorem onlyNamedInstructionsWriteSpecialState : Obligations.OnlyNamedInstructionsWriteSpecialState := by
  intro i s t h
  cases i with
  | ret => obtain ⟨-, rfl⟩ | ⟨-, -, rfl⟩ := exec_ret_next h <;> simp
  | call nnn => obtain ⟨-, rfl⟩ | ⟨-, rfl⟩ := exec_call_next h <;> simp
  | drw x y n =>
    cases (exec_drw x y n s).symm.trans h
    rw [State.drawRows_frame]
    simp
  | ldBVx x =>
    cases (exec_ldBVx x s).symm.trans h
    rw [State.storeBytes_frame]
    simp
  | ldMemVx x =>
    cases (exec_ldMemVx x s).symm.trans h
    rw [State.storeBytes_frame]
    simp
  | ldVxMem x =>
    cases (exec_ldVxMem x s).symm.trans h
    rw [State.loadRegs_frame]
    simp
  | ldVxK x =>
    cases h
    split <;> simp
  | reservedBnnn nnn =>
    cases h
    simp [State.unknownOpcode]
  | _ =>
    cases h
    simp

/-- A register write changes VF only when VF is the register. -/
theorem State.eq_vf_of_setReg {s : State} {x : Nibble} {b : Byte} (h : (s.setReg x b).reg 0xF ≠ s.reg 0xF) : x = 0xF := by
  by_contra hx
  exact h (State.reg_setReg_other (Ne.symm hx))

/-- Settles O21: an instruction that is not one of the five flag writers writes one register, the loaded ones, or none. -/
theorem onlyNamedInstructionsWriteVf : Obligations.OnlyNamedInstructionsWriteVf := by
  intro i s t h hvf
  cases i with
  | addVxVy x y | subVxVy x y | shrVx x y | shlVx x y | drw x y n => simp
  | ldVxNn x _ | addVxNn x _ | rnd x _ | ldVxVy x _ | orVxVy x _ | andVxVy x _ | xorVxVy x _ | ldVxDt x =>
    cases h
    obtain rfl := State.eq_vf_of_setReg hvf
    simp
  | ldVxK x =>
    cases h
    split at hvf
    · exact absurd rfl hvf
    · obtain rfl := State.eq_vf_of_setReg hvf
      simp
  | ldVxMem x =>
    cases (exec_ldVxMem x s).symm.trans h
    rw [State.reg_advance, State.reg_loadRegs _ (by omega)] at hvf
    have hx : x = 0xF := by
      by_contra hne
      exact hvf (if_neg (by bv_omega))
    simp [hx]
  | ldBVx x =>
    cases (exec_ldBVx x s).symm.trans h
    rw [State.storeBytes_frame] at hvf
    exact absurd rfl hvf
  | ldMemVx x =>
    cases (exec_ldMemVx x s).symm.trans h
    rw [State.storeBytes_frame] at hvf
    exact absurd rfl hvf
  | ret => obtain ⟨-, rfl⟩ | ⟨-, -, rfl⟩ := exec_ret_next h <;> exact absurd rfl hvf
  | call nnn => obtain ⟨-, rfl⟩ | ⟨-, rfl⟩ := exec_call_next h <;> exact absurd rfl hvf
  | _ =>
    cases h
    simp [State.unknownOpcode] at hvf

end Sys2Proof.Machine

/-! ## What a step is made of (40_step_cycle.md R100, R109) -/

namespace Sys2Proof.Machine

/-- Settles O6: a step of a core that is not halted finishes what `exec` gives. -/
theorem stepRunsDecodedInstruction : Obligations.StepRunsDecodedInstruction := by
  intro s i hs hd
  rw [step_of_decode hs hd]
  exact ⟨fun u hu => by rw [hu]; rfl, fun f hf => by rw [hf]; rfl⟩

theorem step_of_exec_next {s u : State} {i : Instr} (hs : s.halted = false) (hd : decode s.wordAtPc = .ok i)
    (hu : exec i s.readyToRun = .next u) : step s = .next u.endStep.nextInputs :=
  (stepRunsDecodedInstruction s i hs hd).1 u hu

theorem step_of_halted {s : State} (hs : s.halted = true) : step s = .next s.driverTicks.refuseStep.nextInputs :=
  if_pos hs

/-- An unknown word runs as such, also the reserved pattern: its constructor encodes to the word itself. -/
theorem step_of_unknown {s : State} (hs : s.halted = false) (hw : s.AtUnknownWord) :
    step s = .next (s.readyToRun.unknownOpcode s.wordAtPc).endStep.nextInputs := by
  cases hd : decode s.wordAtPc with
  | error e => exact step_of_decode_error hs hd
  | ok i =>
    obtain ⟨nnn, rfl⟩ : ∃ nnn, i = .reservedBnnn nnn := by
      have hi := hw i hd
      cases i with
      | reservedBnnn nnn => exact ⟨nnn, rfl⟩
      | _ => cases hi
    have hword : 0xB#4 ++ nnn = s.wordAtPc := encodeOfDecodeGivesWord _ _ hd
    rw [step_of_decode hs hd, ← hword]
    rfl

/-- What a step of a core that is not halted has done when it gives a next state: it has run the decoded instruction, or
reported an unknown word. -/
theorem step_next {s t : State} (hs : s.halted = false) (h : step s = .next t) :
    ∃ u, t = u.endStep.nextInputs ∧
      ((∃ i, decode s.wordAtPc = .ok i ∧ exec i s.readyToRun = .next u) ∨
        u = s.readyToRun.unknownOpcode s.wordAtPc) := by
  cases hd : decode s.wordAtPc with
  | error e =>
    cases (step_of_decode_error hs hd).symm.trans h
    exact ⟨_, rfl, .inr rfl⟩
  | ok i =>
    rw [step_of_decode hs hd] at h
    obtain ⟨u, hu, rfl⟩ := finishStep_next.1 h
    exact ⟨u, rfl, .inl ⟨i, rfl, hu⟩⟩

/-! ### Timers over a whole step -/

theorem TimersDown.trans {m n : Nat} {s t u : State} (hst : TimersDown m s t) (htu : TimersDown n t u) :
    TimersDown (m + n) s u := by
  obtain ⟨hd, hs⟩ := hst
  obtain ⟨hd', hs'⟩ := htu
  exact ⟨by omega, by omega⟩

/-- The end of a step takes both timers down by one exactly when R109 says so. -/
theorem State.endStep_timersDown_ite (s : State) :
    TimersDown (if s.config.tickPerStep = true ∧ s.status ≠ .halted then 1 else 0) s s.endStep := by
  rw [State.endStep_cases]
  split
  · rw [State.tick_eq_ticks]
    exact s.ticks_timersDown 1
  · exact ⟨rfl, rfl⟩

/-- The driver's ticks come before the instruction (R234). -/
theorem State.readyToRun_timersDown (s : State) : TimersDown s.env.ticks s s.readyToRun := s.ticks_timersDown _

/-- An instruction that leaves the timers and does not halt: the step takes them down by the driver's ticks and its own. -/
theorem timersDown_of_readyToRun {s u : State} (hdt : u.dt = s.readyToRun.dt) (hst : u.st = s.readyToRun.st)
    (hconfig : u.config = s.config) (hu : u.status ≠ .halted) :
    TimersDown (s.env.ticks + if s.config.tickPerStep then 1 else 0) s u.endStep.nextInputs := by
  have hrun : TimersDown s.env.ticks s u := by
    rw [TimersDown, hdt, hst]
    exact s.readyToRun_timersDown
  have hend := State.endStep_timersDown hu
  rw [hconfig] at hend
  exact hrun.trans hend

/-- Settles O7: the step runs the report of an unknown word; beside the timers nothing else of a step changes the machine. -/
theorem stepReportsUnknownWord : Obligations.StepReportsUnknownWord := by
  intro s hs hw
  have hstep := step_of_unknown hs hw
  have htimers := timersDown_of_readyToRun (u := s.readyToRun.unknownOpcode s.wordAtPc) rfl rfl rfl nofun
  rw [State.endStep_frame] at hstep htimers
  exact ⟨_, hstep, BitVec.toNat_add _ _, rfl, rfl, rfl, htimers, fun _ _ => rfl, fun _ _ => rfl, rfl⟩

/-- Settles O8: the driver's ticks and the refusal are all that such a step does. -/
theorem haltedStepChangesNothing : Obligations.HaltedStepChangesNothing :=
  fun s hs => ⟨_, step_of_halted hs, s.ticks_timersDown _, rfl⟩

/-- Settles O10: the tick is the one change at the end of a step, and the instruction has changed neither the parameters it
looks at nor the inputs. -/
theorem endOfStepTick : Obligations.EndOfStepTick := by
  intro s i u hs hd hu
  obtain ⟨-, -, -, -, -, -, -, hconfig, -, hinputs, hcycle⟩ := onlyNamedInstructionsWriteSpecialState i _ _ hu
  have htick := u.endStep_timersDown_ite
  rw [hconfig] at htick
  refine ⟨_, step_of_exec_next hs hd hu, htick, ?_⟩
  rw [u.endStep_frame, State.nextInputs, hinputs, hcycle]
  rfl

/-- Settles O11: the ticks the model computes at once are single ticks in a row, and both kinds of step begin with them. -/
theorem driverTicksComeBeforeStep : Obligations.DriverTicksComeBeforeStep := by
  intro s
  rw [State.tick_iterate]
  exact ⟨s.stepFetch_snd.symm, step_of_halted⟩

/-- The high byte of a fetched word is the first of its two bytes (R52). -/
@[simp] theorem highByte_joinBytes (hi lo : Byte) : highByte (joinBytes hi lo) = hi := BitVec.extractLsb'_append_eq_left

/-- The low byte of a fetched word is the second of its two bytes (R52). -/
@[simp] theorem lowByte_joinBytes (hi lo : Byte) : lowByte (joinBytes hi lo) = lo := BitVec.extractLsb'_append_eq_right

@[simp] theorem State.memWrite_pc (s : State) (a : Nat) (b : Byte) : (s.memWrite a b).pc = s.pc := by
  rw [s.memWrite_frame]

/-- Settles O13: a fetch reads its two bytes from memory, and the byte stored reads back at its effective address. -/
theorem storeIsSeenByNextFetch : Obligations.StoreIsSeenByNextFetch := by
  intro s a b hwf
  rw [State.fetch_word, State.wordAtPc, highByte_joinBytes, lowByte_joinBytes, State.memWrite_pc]
  have hread := s.peek_memWrite_same (a := a) (b := b) hwf
  exact ⟨fun h => (congrArg _ h.symm).trans hread, fun h => (congrArg _ h.symm).trans hread⟩

end Sys2Proof.Machine

/-! ## What an instruction reports (60_exceptions.md R220 to R226) -/

namespace Sys2Proof.Machine

/-- The events of an instruction that takes no fatal fault, in their order (R220). -/
def State.reports (s : State) : Instr → List Event
  | .cls => [.redraw]
  | .drw _ _ n => boundsEvents .read (s.dataAddresses n.toNat) ++ [.redraw]
  | .reservedBnnn nnn => [.unknownOpcode (0xB#4 ++ nnn) s.pc]
  | .skp x | .sknp x => rangeEvents (s.reg x) .key
  | .ldFVx x => rangeEvents (s.reg x) .font
  | .ldStVx x => [.toneRequest (s.reg x)]
  | .ldBVx _ => boundsEvents .write (s.dataAddresses 3)
  | .ldMemVx x => boundsEvents .write (s.dataAddresses (x.toNat + 1))
  | .ldVxMem x => boundsEvents .read (s.dataAddresses (x.toNat + 1))
  | _ => []

/-- What an instruction that gives a next state does to the latch and the event list: it takes a fatal fault, which breaks
the obligations of software, or it keeps the latch and appends its reports. -/
theorem exec_fatal_or_reports {i : Instr} {s u : State} (h : exec i s = .next u) :
    (∃ c, u = s.raiseFatal c ∧ ¬ s.MeetsObligations i) ∨
      u.halted = s.halted ∧ u.events = s.events ++ s.reports i := by
  cases i with
  | ret =>
    obtain ⟨h0, rfl⟩ | ⟨-, -, rfl⟩ := exec_ret_next h
    · exact .inl ⟨_, rfl, by simp [State.MeetsObligations, h0]⟩
    · exact .inr ⟨rfl, (List.append_nil _).symm⟩
  | call nnn =>
    obtain ⟨hfull, rfl⟩ | ⟨-, rfl⟩ := exec_call_next h
    · exact .inl ⟨_, rfl, by simp [State.MeetsObligations, hfull]⟩
    · exact .inr ⟨rfl, (List.append_nil _).symm⟩
  | drw x y n =>
    cases (exec_drw x y n s).symm.trans h
    have hevents := (s.setReg vf 0).drawRows_events ((s.reg x).toNat % 64) ((s.reg y).toNat % 32) n.toNat
    refine .inr ⟨by rw [State.drawRows_frame]; rfl, ?_⟩
    rw [State.advance_events, State.raiseRedraw_events, hevents, State.reports, List.append_assoc]
    rfl
  | ldBVx x =>
    cases (exec_ldBVx x s).symm.trans h
    exact .inr ⟨by rw [State.storeBytes_frame]; rfl, s.storeBytes_events _ _⟩
  | ldMemVx x =>
    cases (exec_ldMemVx x s).symm.trans h
    exact .inr ⟨by rw [State.storeBytes_frame]; rfl, s.storeBytes_events _ _⟩
  | ldVxMem x =>
    cases (exec_ldVxMem x s).symm.trans h
    exact .inr ⟨by rw [State.loadRegs_frame]; rfl, s.loadRegs_events _⟩
  | ldVxK x =>
    cases h
    split <;> simp [State.reports]
  | _ =>
    cases h
    simp [State.reports, State.unknownOpcode]

/-- The events an instruction reports without a fatal fault: no load error, and no access that is a fetch. -/
def Event.isReport : Event → Bool
  | .unknownOpcode _ _ | .addressOutOfBounds _ .read | .addressOutOfBounds _ .write | .operandOutOfRange _ _ | .redraw
  | .toneRequest _ => true
  | .loadError _ | .fatal _ _ | .addressOutOfBounds _ .fetch => false

theorem mem_boundsEvents {kind : AccessKind} {l : List Nat} {e : Event} :
    e ∈ boundsEvents kind l ↔ ∃ a ∈ l, 4095 < a ∧ e = .addressOutOfBounds a kind := by
  simp only [boundsEvents, List.mem_map, List.mem_filter, decide_eq_true_eq, and_assoc, eq_comm (b := e)]

theorem mem_rangeEvents {b : Byte} {what : OperandKind} {e : Event} :
    e ∈ rangeEvents b what ↔ 15 < b.toNat ∧ e = .operandOutOfRange b what := by
  unfold rangeEvents
  split <;> simp_all

theorem isReport_of_mem_reports {s : State} {i : Instr} {e : Event} (he : e ∈ s.reports i) : e.isReport = true := by
  cases i with
  | drw x y n =>
    obtain he | he := List.mem_append.1 he
    · obtain ⟨a, -, -, rfl⟩ := mem_boundsEvents.1 he; rfl
    · cases List.mem_singleton.1 he; rfl
  | ldBVx x => obtain ⟨a, -, -, rfl⟩ := mem_boundsEvents.1 he; rfl
  | ldMemVx x => obtain ⟨a, -, -, rfl⟩ := mem_boundsEvents.1 he; rfl
  | ldVxMem x => obtain ⟨a, -, -, rfl⟩ := mem_boundsEvents.1 he; rfl
  | skp x | sknp x | ldFVx x => obtain ⟨-, rfl⟩ := mem_rangeEvents.1 he; rfl
  | cls | reservedBnnn nnn | ldStVx x => cases List.mem_singleton.1 he; rfl
  | _ => cases he

/-- An instruction that meets the obligations of software reports signals only (R272). -/
theorem not_isDiagnostic_of_mem_reports {s : State} {i : Instr} {e : Event} (h : s.MeetsObligations i)
    (he : e ∈ s.reports i) : e.isDiagnostic = false := by
  have hbounds {kind : AccessKind} {n : Nat} (hn : s.i.toNat + n ≤ 4096) (he : e ∈ boundsEvents kind (s.dataAddresses n)) :
      e.isDiagnostic = false := by
    rw [boundsEvents_of_le (by simp [State.dataAddresses, State.dataAddress]; omega)] at he
    cases he
  have hrange {b : Byte} {what : OperandKind} (hb : b.toNat ≤ 15) (he : e ∈ rangeEvents b what) :
      e.isDiagnostic = false := absurd (mem_rangeEvents.1 he).1 (by omega)
  cases i with
  | drw x y n =>
    obtain he | he := List.mem_append.1 he
    · exact hbounds h he
    · cases List.mem_singleton.1 he; rfl
  | ldBVx x => exact hbounds h he
  | ldMemVx x => exact hbounds h he
  | ldVxMem x => exact hbounds h he
  | skp x | sknp x | ldFVx x => exact hrange h he
  | cls | ldStVx x => cases List.mem_singleton.1 he; rfl
  | reservedBnnn nnn => cases h
  | _ => cases he

/-! ### What a whole step reports -/

/-- A fatal fault ends the step: it does not tick (R109, R226). -/
theorem State.endStep_raiseFatal (s : State) (c : FatalCode) : (s.raiseFatal c).endStep = s.raiseFatal c :=
  if_neg fun h => h.2 rfl

/-- A step of a core that is not halted takes a fatal fault, or keeps the latch and adds reports to the events of the fetch. -/
theorem step_fatal_or_reports {s t : State} (hs : s.halted = false) (h : step s = .next t) :
    (∃ c, t = (s.readyToRun.raiseFatal c).nextInputs) ∨
      t.halted = false ∧
        ∃ rest, t.events = s.readyToRun.events ++ rest ∧ ∀ e ∈ rest, e.isReport = true := by
  obtain ⟨u, rfl, ⟨i, -, hu⟩ | rfl⟩ := step_next hs h
  · obtain ⟨c, rfl, -⟩ | ⟨hhalted, hevents⟩ := exec_fatal_or_reports hu
    · exact .inl ⟨c, by rw [State.endStep_raiseFatal]⟩
    · refine .inr ⟨?_, s.readyToRun.reports i, ?_, fun e => isReport_of_mem_reports⟩
      · rw [State.nextInputs_halted, State.endStep_halted, hhalted]
        exact hs
      · rw [State.nextInputs_events, State.endStep_events, hevents]
  · refine .inr ⟨?_, [.unknownOpcode s.wordAtPc s.pc], ?_, by simp [Event.isReport]⟩
    · rw [State.nextInputs_halted, State.endStep_halted]
      exact hs
    · rw [State.nextInputs_events, State.endStep_events]
      rfl

/-- The list of the step before goes to the history, whatever the step runs (R220). -/
theorem step_history {s t : State} (hs : s.halted = false) (h : step s = .next t) : t.history = s.history ++ s.events := by
  obtain ⟨u, rfl, ⟨i, -, hu⟩ | rfl⟩ := step_next hs h
  · obtain ⟨-, -, -, -, -, -, -, -, hhistory, -⟩ := onlyNamedInstructionsWriteSpecialState i _ _ hu
    rw [State.nextInputs_history, State.endStep_history, hhistory]
    rfl
  · rw [State.nextInputs_history, State.endStep_history]
    rfl

/-- Settles O12: the list begins with the events of the fetch, and neither a fatal event nor a report is one of those that
must not follow. -/
theorem fetchEventsComeFirst : Obligations.FetchEventsComeFirst := by
  intro s t hs h
  refine ⟨step_history hs h, ?_⟩
  obtain ⟨c, rfl⟩ | ⟨-, rest, hevents, hrest⟩ := step_fatal_or_reports hs h
  · exact ⟨[.fatal c s.pc], rfl, by simp⟩
  · refine ⟨rest, hevents, fun e he => ⟨?_, ?_⟩⟩
    · rintro a rfl
      cases hrest _ he
    · rintro n rfl
      cases hrest _ he

/-! ### The halted latch -/

theorem fatal_notMem_boundsEvents (kind : AccessKind) (l : List Nat) (c : FatalCode) (pc : Word) :
    Event.fatal c pc ∉ boundsEvents kind l := by
  simp [mem_boundsEvents]

/-- A step with a fatal event in its list is one that took that fault. -/
theorem step_of_fatal_mem {s t : State} {c : FatalCode} (hs : s.halted = false) (h : step s = .next t)
    (hmem : Event.fatal c s.pc ∈ t.events) : t = (s.readyToRun.raiseFatal c).nextInputs := by
  obtain ⟨c', rfl⟩ | ⟨-, rest, hevents, hrest⟩ := step_fatal_or_reports hs h
  · obtain hfetch | hfatal := List.mem_append.1 hmem
    · exact absurd hfetch (fatal_notMem_boundsEvents _ _ _ _)
    · cases List.mem_singleton.1 hfatal
      rfl
  · rw [hevents] at hmem
    obtain hfetch | hfatal := List.mem_append.1 hmem
    · exact absurd hfetch (fatal_notMem_boundsEvents _ _ _ _)
    · cases hrest _ hfatal

/-- Settles O18: a refused step keeps the latch, a fatal fault sets it with its event, and every other step keeps it at 0 and
has no such event. -/
theorem onlyFatalFaultsHalt : Obligations.OnlyFatalFaultsHalt := by
  intro s t h
  cases hs : s.halted with
  | true =>
    cases (step_of_halted hs).symm.trans h
    exact iff_of_true hs (.inl rfl)
  | false =>
    obtain ⟨c, rfl⟩ | ⟨hhalted, -⟩ := step_fatal_or_reports hs h
    · exact iff_of_true rfl (.inr ⟨c, List.mem_append_right _ (List.mem_singleton.2 rfl)⟩)
    · refine iff_of_false (by simp [hhalted]) ?_
      rintro (hfalse | ⟨c, hc⟩)
      · cases hfalse
      · cases step_of_fatal_mem hs h hc
        cases hhalted

/-- Settles O19: the fault is taken in the state in which the instruction was to run, which the driver's ticks and the fetch
have left, and the step ends with it. -/
theorem fatalFaultIsPrecise : Obligations.FatalFaultIsPrecise := by
  intro s t c hs h hmem
  cases step_of_fatal_mem hs h hmem
  exact ⟨fun _ _ => rfl, fun _ _ => rfl, s.readyToRun_timersDown, rfl⟩

end Sys2Proof.Machine

/-! ## The invariant (10_state.md R25, 40_step_cycle.md R106) -/

namespace Sys2Proof.Machine

/-- Only the stores through `I` write memory, and they write at effective addresses. -/
theorem exec_keeps_wf {i : Instr} {s u : State} (h : exec i s = .next u) (hwf : Memory.wf s.config s.mem = true) :
    Memory.wf u.config u.mem = true := by
  obtain ⟨-, -, -, -, -, -, hmem, hconfig, -⟩ := onlyNamedInstructionsWriteSpecialState i s u h
  by_cases hsame : u.mem = s.mem
  · rwa [hsame, hconfig]
  · obtain ⟨x, rfl⟩ | ⟨x, rfl⟩ := hmem hsame
    · cases (exec_ldBVx x s).symm.trans h
      exact State.storeBytes_wf hwf _ _
    · cases (exec_ldMemVx x s).symm.trans h
      exact State.storeBytes_wf hwf _ _

/-- Only call and return write `SP`, within its bounds (R25). -/
theorem exec_keeps_sp_le {i : Instr} {s u : State} (h : exec i s = .next u) (hsp : s.sp.toNat ≤ 16) : u.sp.toNat ≤ 16 := by
  obtain ⟨hspecial, -⟩ := onlyNamedInstructionsWriteSpecialState i s u h
  by_cases hsame : u.sp = s.sp
  · rwa [hsame]
  · obtain rfl | ⟨nnn, rfl⟩ := hspecial (.inl hsame)
    · obtain ⟨-, rfl⟩ | ⟨hpos, -, rfl⟩ := exec_ret_next h
      · exact hsp
      · rw [State.setPc_sp, State.pop_sp_toNat hpos]
        omega
    · obtain ⟨-, rfl⟩ | ⟨hlt, rfl⟩ := exec_call_next h
      · exact hsp
      · rw [State.setPc_sp, State.push_sp_toNat _ hlt]
        omega

/-- A step of a core that is not halted leaves no draw flag on a halted core: only a fatal fault halts, and it clears the
flag. -/
theorem step_drawFlag_of_halts {s t : State} (hs : s.halted = false) (h : step s = .next t) (ht : t.halted = true) :
    t.drawFlag = false := by
  obtain ⟨c, rfl⟩ | ⟨hhalted, -⟩ := step_fatal_or_reports hs h
  · rfl
  · cases hhalted.symm.trans ht

/-- Settles O14: a refused step leaves memory, `SP`, the latch and the flag; in any other step the instruction keeps the first
two, and the end of the step touches none of them. -/
theorem stepKeepsInvariant : Obligations.StepKeepsInvariant := by
  rintro s t ⟨hwf, hsp, hflag⟩ h
  cases hs : s.halted with
  | true =>
    cases (step_of_halted hs).symm.trans h
    exact ⟨hwf, hsp, hflag⟩
  | false =>
    have hdraw := step_drawFlag_of_halts hs h
    obtain ⟨u, rfl, ⟨i, -, hu⟩ | rfl⟩ := step_next hs h
    · refine ⟨?_, ?_, hdraw⟩
      · simpa using exec_keeps_wf hu hwf
      · simpa using exec_keeps_sp_le hu hsp
    · refine ⟨?_, ?_, hdraw⟩
      · rw [State.endStep_frame]
        exact hwf
      · rw [State.endStep_frame]
        exact hsp

/-- Settles O15: reset memory lists nothing, and the rest is read off the reset state. -/
theorem resetMeetsInvariant : Obligations.ResetMeetsInvariant := by
  have h (c : Config) : (State.resetWith c).Inv := ⟨resetWith_wf c, Nat.zero_le 16, fun _ => rfl⟩
  exact ⟨h defaultConfig, h⟩

/-- With `SP` at most 16 every instruction gives a next state: call and return have no other branch left. -/
theorem exec_completes (i : Instr) {s : State} (hsp : s.sp.toNat ≤ 16) : ∃ u, exec i s = .next u := by
  cases i with
  | ret =>
    obtain h0 | hpos := Nat.eq_zero_or_pos s.sp.toNat
    · exact ⟨_, exec_ret_of_zero h0⟩
    · exact ⟨_, exec_ret_of_pos hpos hsp⟩
  | call nnn =>
    obtain hlt | hfull := Nat.lt_or_eq_of_le hsp
    · exact ⟨_, exec_call_of_lt nnn hlt⟩
    · exact ⟨_, exec_call_of_full nnn hfull⟩
  | _ => exact ⟨_, rfl⟩

/-- Settles O16: a halted core refuses, an unknown word is reported, and an instruction completes since `SP` is at most 16. -/
theorem everyStepCompletes : Obligations.EveryStepCompletes := by
  rintro s ⟨-, hsp, -⟩
  cases hs : s.halted with
  | true => exact ⟨_, step_of_halted hs⟩
  | false =>
    cases hd : decode s.wordAtPc with
    | error e => exact ⟨_, step_of_decode_error hs hd⟩
    | ok i =>
      obtain ⟨u, hu⟩ := exec_completes i (s := s.readyToRun) hsp
      exact ⟨_, step_of_exec_next hs hd hu⟩

end Sys2Proof.Machine

/-! ## Programs that keep their obligations, and the idle loop (70_reset_and_hazards.md R268, R272) -/

namespace Sys2Proof.Machine

/-- What the obligations of software speak of is the same when the instruction runs. -/
theorem State.readyToRun_meetsObligations {s : State} {i : Instr} (h : s.MeetsObligations i) :
    s.readyToRun.MeetsObligations i := by
  cases i <;> exact h

/-- Settles O22: with its obligations met an instruction takes no fatal fault and reports signals only, and the fetch from
inside memory reports nothing. -/
theorem obedientStepReportsNothing : Obligations.ObedientStepReportsNothing := by
  rintro s t i ⟨-, hsp, -⟩ hs hpc hd hmeets h
  replace hmeets := State.readyToRun_meetsObligations hmeets
  obtain ⟨u, hu⟩ := exec_completes i (s := s.readyToRun) hsp
  cases (step_of_exec_next hs hd hu).symm.trans h
  obtain ⟨c, -, hbroken⟩ | ⟨hhalted, hevents⟩ := exec_fatal_or_reports hu
  · exact absurd hmeets hbroken
  have hfetch : s.readyToRun.events = [] := boundsEvents_of_le (by simp; omega)
  have hht : u.endStep.nextInputs.halted = false := by
    rw [State.nextInputs_halted, State.endStep_halted, hhalted]
    exact hs
  have hsignals : ∀ e ∈ u.endStep.nextInputs.events, e.isDiagnostic = false := by
    rw [State.nextInputs_events, State.endStep_events, hevents, hfetch, List.nil_append]
    exact fun e => not_isDiagnostic_of_mem_reports hmeets
  refine ⟨hht, hsignals, fun ⟨_, hclean⟩ => ⟨hht, ?_⟩⟩
  rw [step_history hs h]
  exact List.forall_mem_append.2 ⟨hclean, hsignals⟩

/-- Settles O23: the word at `PC` is a jump to `PC`, and a fetch from `zextAddr nnn` can leave memory only from 0xFFF. -/
theorem idleLoopIsFinal : Obligations.IdleLoopIsFinal := by
  rintro s ⟨hs, nnn, hword, hpc⟩
  have hd : decode s.wordAtPc = .ok (.jp nnn) := by rw [hword, decode_encode]
  have hstep := step_of_exec_next (u := s.readyToRun.setPc (zextAddr nnn)) hs hd rfl
  rw [← hpc] at hstep
  have hevents : s.pc.toNat ≠ 0xFFF → s.readyToRun.events = [] := fun hne => by
    have hlt : s.pc.toNat < 4096 := by
      rw [hpc, zextAddr_toNat]
      exact nnn.isLt
    exact boundsEvents_of_le (by simp; omega)
  rw [State.endStep_frame] at hstep
  exact ⟨_, hstep, ⟨hs, nnn, hword, hpc⟩, rfl, hevents, fun _ _ => rfl, fun _ _ => rfl, rfl⟩

end Sys2Proof.Machine

/-! ## The driver's operations (70_reset_and_hazards.md R260, R266) -/

namespace Sys2Proof.Machine

/-- `for k = 0 to n - 1: MEM[0x200 + k] <- b k`, the loop of `load` (R266). -/
def State.loadBytes (s : State) (n : Nat) (b : Nat → Byte) : State := forUp n (fun k t => t.poke (progBase + k) (b k)) s

theorem State.loadBytes_succ (s : State) (n : Nat) (b : Nat → Byte) :
    s.loadBytes (n + 1) b = (s.loadBytes n b).poke (progBase + n) (b n) := rfl

theorem State.loadBytes_wf {s : State} (h : Memory.wf s.config s.mem = true) {n : Nat} (hn : n ≤ maxImage)
    (b : Nat → Byte) : Memory.wf (s.loadBytes n b).config (s.loadBytes n b).mem = true := by
  refine forUp_keeps (P := fun t => Memory.wf t.config t.mem = true) h fun k t hk ht => memoryWrite_wf ht ?_
  unfold progBase
  unfold maxImage at hn
  omega

/-- Every byte of an image reads back: the ones after it go to higher addresses. -/
theorem State.peek_loadBytes_same {s : State} (h : Memory.wf s.config s.mem = true) {n k : Nat} (hn : n ≤ maxImage)
    (hk : k < n) (b : Nat → Byte) : (s.loadBytes n b).peek (progBase + k) = b k := by
  induction n with
  | zero => omega
  | succ n ih =>
    rw [State.loadBytes_succ]
    obtain hlt | rfl := Nat.lt_succ_iff_lt_or_eq.1 hk
    · rw [State.peek_poke_other _ (by omega), ih (by omega) hlt]
    · exact State.peek_poke_same _ (State.loadBytes_wf h (by omega) _)

theorem State.keepsMemory_loadBytes (s : State) (n : Nat) (b : Nat → Byte) :
    KeepsMemory (fun a => 0x200 ≤ a ∧ a < 0x200 + n) s (s.loadBytes n b) := fun z hz =>
  forUp_same (State.peek · z) fun k t hk => t.peek_poke_other (by unfold progBase; omega)

theorem State.loadBytes_frame (s : State) (n : Nat) (b : Nat → Byte) :
    s.loadBytes n b = { s with mem := (s.loadBytes n b).mem } := by
  refine forUp_keeps (P := fun t => t = { s with mem := t.mem }) rfl fun k t _ ht => ?_
  rw [ht]
  rfl

theorem applyLoad_of_le {bytes : List Byte} (s : State) (h : bytes.length ≤ maxImage) :
    applyLoad bytes s = (.ok, s.newEvents.loadBytes bytes.length (fun k => bytes[k]?.getD 0)) :=
  if_neg (Nat.not_lt.2 h)

theorem applyLoad_of_gt {bytes : List Byte} (s : State) (h : maxImage < bytes.length) :
    applyLoad bytes s = (.error, s.newEvents.emit (.loadError bytes.length)) := if_pos h

/-- Settles O25: an image that fits is stored byte by byte from 0x200 up; the other branch writes no memory at all. -/
theorem loadCopiesImage : Obligations.LoadCopiesImage := by
  refine fun bytes s => ⟨fun hle => ?_, applyLoad_of_gt s⟩
  refine ⟨_, applyLoad_of_le s hle, fun hwf k hk => ?_, State.keepsMemory_loadBytes s.newEvents _ _, ?_⟩
  · have hread := State.peek_loadBytes_same (s := s.newEvents) hwf hle hk (fun k => bytes[k]?.getD 0)
    rwa [List.getElem?_eq_getElem hk, Option.getD_some] at hread
  · rw [State.loadBytes_frame]
    rfl

/-- Inside the font region memory holds the glyph bytes after reset (R36, R51). -/
theorem resetByte_glyph (c : Config) {k : Nat} (hk : k < 80) : resetByte c (c.fontBase.val + k) = c.fontGlyphs[k] := by
  simp [resetByte, hk]

/-- Outside the font region memory holds 0 after reset (R36). -/
theorem resetByte_outside (c : Config) {a : Nat} (h : a < c.fontBase.val ∨ c.fontBase.val + 80 ≤ a) :
    resetByte c a = 0 := by
  unfold resetByte
  split
  · rw [Vector.getElem?_eq_none (by omega)]
    rfl
  · rfl

/-- A state with the state elements and outputs of reset, whatever the model's own history, inputs and step number are. -/
theorem resetWith_isResetState (c : Config) (history : List Event) (inputs : List Inputs) (cycle : Nat) :
    IsResetState c { State.resetWith c with history := history, inputs := inputs, cycle := cycle } := by
  refine ⟨fun r => Vector.getElem_replicate _, rfl, rfl, rfl, fun k hk => ?_, rfl, rfl, rfl, fun k _ => ?_, ?_,
    fun a _ ha => resetByte_outside c ha, rfl, rfl, rfl⟩
  · simp [State.slot, State.resetWith, hk]
  · simp [State.cell, State.resetWith]
  · rintro g r ⟨hg, hr⟩
    rw [Nat.add_assoc]
    exact resetByte_glyph c (by omega)

/-- Settles O26: `reset` builds the reset state anew, under the parameters it finds. -/
theorem resetGivesResetState : Obligations.ResetGivesResetState :=
  ⟨fun s => ⟨resetWith_isResetState s.config _ _ _, rfl⟩, resetWith_isResetState defaultConfig [] [] 0⟩

end Sys2Proof.Machine

/-! ## The reserved pattern (41_control_flow.md R128) -/

namespace Sys2Proof.Machine

/-- Settles O33: the range fixes nibble `a`, so each word selects the row of `Bnnn`, and it is the word that is reported. -/
theorem reservedPatternIsUnknown : Obligations.ReservedPatternIsUnknown := by
  intro w hlow hhigh
  have htop : (w.extractLsb' 12 4).toNat = 0xB := by
    rw [BitVec.extractLsb'_toNat, Nat.shiftRight_eq_div_pow]
    omega
  have hd : decode w = .ok (.reservedBnnn (fieldNnn w)) :=
    decode_of_selects (r := ⟨0xF000, 0xB000, fun w => .reservedBnnn (fieldNnn w)⟩)
      (by simp [opcodeTable, opcodeRowsHigh]) ((selects_iff_top rfl).2 htop)
  have hword : 0xB#4 ++ fieldNnn w = w := encodeOfDecodeGivesWord _ _ hd
  refine ⟨hd, fun s => ⟨_, rfl, pcMovesBy_advance rfl, ?_, fun _ _ => rfl, rfl⟩⟩
  rw [State.unknownOpcode, State.advance_events, State.emit_events, hword]

end Sys2Proof.Machine

/-! ## Instructions that write VF beside their destination (42_register_alu.md R146 to R149) -/

namespace Sys2Proof.Machine

section
variable {i : Instr} {s : State} {x : Nibble} {b flag : Byte}

/-- An instruction that writes `Vx`, then VF: with `x = F` the flag stays (R107). -/
theorem exec_writes_reg_then_vf (h : exec i s = .next ((s.setReg x b).setReg vf flag).advance) :
    ∃ t, exec i s = .next t ∧ (x ≠ 0xF → t.reg x = b) ∧ t.reg 0xF = flag ∧ PcMovesBy 2 s t ∧
      OnlyRegsAndPc (fun r => r = x ∨ r = 0xF) s t := by
  refine ⟨_, h, fun hx => ?_, State.reg_setReg_same _ vf flag, pcMovesBy_advance rfl,
    .advance (.setReg _ (.inr rfl) (.setReg _ (.inl rfl) .refl))⟩
  rw [State.reg_advance, State.reg_setReg_other (x := vf) hx, State.reg_setReg_same]

/-- An instruction that writes VF, then `Vx`: with `x = F` the result stays (R107). -/
theorem exec_writes_vf_then_reg (h : exec i s = .next ((s.setReg vf flag).setReg x b).advance) :
    ∃ t, exec i s = .next t ∧ t.reg x = b ∧ (x ≠ 0xF → t.reg 0xF = flag) ∧ PcMovesBy 2 s t ∧
      OnlyRegsAndPc (fun r => r = x ∨ r = 0xF) s t := by
  refine ⟨_, h, State.reg_setReg_same _ x b, fun hx => ?_, pcMovesBy_advance rfl,
    .advance (.setReg _ (.inl rfl) (.setReg _ (.inr rfl) .refl))⟩
  rw [State.reg_advance, State.reg_setReg_other (Ne.symm hx)]
  exact State.reg_setReg_same _ vf flag

end

/-! ### The flags as numbers (R22, R161) -/

theorem flagByte_toNat (c : Bool) : (flagByte c).toNat = if c then 1 else 0 := by cases c <;> rfl

theorem carryFlag_toNat (p q : Byte) : (carryFlag p q).toNat = if 255 < p.toNat + q.toNat then 1 else 0 := by
  simp [carryFlag, flagByte_toNat]

theorem notBorrowFlag_toNat (p q : Byte) : (notBorrowFlag p q).toNat = if p.toNat < q.toNat then 0 else 1 := by
  simp only [notBorrowFlag, flagByte_toNat, decide_eq_true_eq]
  split <;> split <;> omega

theorem lowBitFlag_toNat (p : Byte) : (lowBitFlag p).toNat = p.toNat % 2 := by revert p; decide

theorem highBitFlag_toNat (p : Byte) : (highBitFlag p).toNat = p.toNat / 128 := by revert p; decide

/-- The difference of two bytes, modulo 256 (R147). -/
theorem sub_toNat_ite (p q : Byte) :
    (p - q).toNat = if p.toNat < q.toNat then p.toNat + 256 - q.toNat else p.toNat - q.toNat := by
  split <;> bv_omega

theorem shiftRight_one_toNat (p : Byte) : (p >>> 1).toNat = p.toNat / 2 := by
  rw [BitVec.toNat_ushiftRight, Nat.shiftRight_eq_div_pow, Nat.pow_one]

theorem shiftLeft_one_toNat (p : Byte) : (p <<< 1).toNat = p.toNat * 2 % 256 := by
  rw [BitVec.toNat_shiftLeft, Nat.shiftLeft_eq, Nat.pow_one]

/-- Settles O38: the sum is written first and the carry second, both from the operands read before. -/
theorem addWritesSumThenCarry : Obligations.AddWritesSumThenCarry := by
  refine ⟨wordsDecodeTo_of_mem (by simp [opcodeTable, opcodeRowsAlu]), fun x y s => ?_⟩
  obtain ⟨t, ht, hsum, hflag, hrest⟩ := exec_writes_reg_then_vf (i := .addVxVy x y) (s := s) rfl
  exact ⟨t, ht, fun hx => hsum hx ▸ BitVec.toNat_add _ _, hflag ▸ carryFlag_toNat _ _, hrest⟩

/-- Settles O39: the not-borrow is written first and the difference second, both from the operands read before. -/
theorem subtractWritesNotBorrowThenDifference : Obligations.SubtractWritesNotBorrowThenDifference := by
  refine ⟨wordsDecodeTo_of_mem (by simp [opcodeTable, opcodeRowsAlu]), fun x y s => ?_⟩
  obtain ⟨t, ht, hdiff, hflag, hrest⟩ := exec_writes_vf_then_reg (i := .subVxVy x y) (s := s) rfl
  exact ⟨t, ht, hdiff ▸ sub_toNat_ite _ _, fun hx => hflag hx ▸ notBorrowFlag_toNat _ _, hrest⟩

/-- Settles O40: the bit moved out is written first and the half second, both from the operand read before. -/
theorem shiftRightWritesBitThenHalf : Obligations.ShiftRightWritesBitThenHalf := by
  refine ⟨wordsDecodeTo_of_mem (by simp [opcodeTable, opcodeRowsAlu]), fun x y s => ?_⟩
  obtain ⟨t, ht, hhalf, hflag, hrest⟩ := exec_writes_vf_then_reg (i := .shrVx x y) (s := s) rfl
  exact ⟨t, ht, hhalf ▸ shiftRight_one_toNat _, fun hx => hflag hx ▸ lowBitFlag_toNat _, hrest⟩

/-- Settles O41: the bit moved out is written first and the double second, both from the operand read before. -/
theorem shiftLeftWritesBitThenDouble : Obligations.ShiftLeftWritesBitThenDouble := by
  refine ⟨wordsDecodeTo_of_mem (by simp [opcodeTable, opcodeRowsAlu]), fun x y s => ?_⟩
  obtain ⟨t, ht, hdouble, hflag, hrest⟩ := exec_writes_vf_then_reg (i := .shlVx x y) (s := s) rfl
  exact ⟨t, ht, hdouble ▸ shiftLeft_one_toNat _, fun hx => hflag hx ▸ highBitFlag_toNat _, hrest⟩

end Sys2Proof.Machine

/-! ## Addresses in `I` (43_index_memory.md R171, R174) -/

namespace Sys2Proof.Machine

/-- A byte keeps its value when it is widened to a word. -/
@[simp] theorem zextByte_toNat (b : Byte) : (zextByte b).toNat = b.toNat := BitVec.toNat_setWidth_of_le (by decide)

theorem exec_addIVx (x : Nibble) (s : State) :
    exec (.addIVx x) s = .next (s.setIndex (s.i + zextByte (s.reg x))).advance := rfl

/-- Settles O44: the instruction is one write of `I`, a sum of words, then the plain advance. -/
theorem addIndexWrapsAtSixteenBits : Obligations.AddIndexWrapsAtSixteenBits := by
  refine ⟨wordsDecodeTo_of_mem (by simp [opcodeTable, opcodeRowsHigh]), fun x s =>
    ⟨_, exec_addIVx x s, ?_, pcMovesBy_advance rfl, fun _ _ => rfl, rfl⟩⟩
  rw [State.advance_i, State.setIndex_i, BitVec.toNat_add, zextByte_toNat]

/-- The low digit of a byte (R225). -/
theorem lowNibble_toNat (b : Byte) : (lowNibble b).toNat = b.toNat % 16 := BitVec.toNat_setWidth ..

/-- Every glyph address fits a word, since the font region ends at or below 0x200 (R56). -/
theorem fontAddress_toNat (c : Config) (g : Nibble) : (fontAddress c g).toNat = c.fontBase.val + 5 * g.toNat := by
  rw [fontAddress, BitVec.toNat_ofNat]
  omega

/-- A range report changes the event list only. -/
theorem State.reportRange_frame (s : State) (b : Byte) (what : OperandKind) :
    s.reportRange b what = { s with events := s.events ++ rangeEvents b what } := by
  rw [← s.reportRange_events b what]
  unfold State.reportRange
  split <;> rfl

theorem exec_ldFVx (x : Nibble) (s : State) :
    exec (.ldFVx x) s =
      .next ((s.reportRange (s.reg x) .font).setIndex (fontAddress s.config (lowNibble (s.reg x)))).advance := rfl

/-- Settles O45: the instruction is a range report, one write of `I` and the plain advance; the address written is that of the
low digit, below 0x200 since `FONT_BASE` is at most 432. -/
theorem fontAddressOfLowDigit : Obligations.FontAddressOfLowDigit := by
  refine ⟨wordsDecodeTo_of_mem (by simp [opcodeTable, opcodeRowsHigh]), fun x s => ?_⟩
  have haddress : (fontAddress s.config (lowNibble (s.reg x))).toNat =
      s.config.fontBase.val + 5 * ((s.reg x).toNat % 16) := by
    rw [fontAddress_toNat, lowNibble_toNat]
  refine ⟨_, exec_ldFVx x s, haddress, ?_, s.reportRange_events _ _, ?_, fun z _ => s.peek_reportRange _ _ z, ?_⟩
  · have hbase := s.config.fontBase.isLt
    rw [State.advance_i, State.setIndex_i, haddress]
    omega
  · exact pcMovesBy_advance (s.reportRange_pc _ _)
  · rw [State.reportRange_frame]
    rfl

end Sys2Proof.Machine

/-! ## Keypad, delay timer and sound timer (45_keypad_timers.md R202 to R209) -/

namespace Sys2Proof.Machine

theorem lowNibble_eq {b : Byte} {k : Nibble} (h : k.toNat = b.toNat % 16) : lowNibble b = k :=
  BitVec.eq_of_toNat_eq ((lowNibble_toNat b).trans h.symm)

/-- An instruction that reports an operand out of range and skips on a condition. -/
theorem exec_reports_skips {i : Instr} {s : State} {b : Byte} {what : OperandKind} {c : Bool}
    (h : exec i s = .next ((s.reportRange b what).skipIf c)) :
    ∃ t, exec i s = .next t ∧ PcMovesBy (if c then 4 else 2) s t ∧ t.events = s.events ++ rangeEvents b what ∧
      KeepsMemory (fun _ => False) s t ∧ t = { s with pc := t.pc, events := t.events } := by
  obtain ⟨hmem, hframe⟩ := (s.reportRange b what).onlyPc_skipIf c
  have hpc := (s.reportRange b what).pcMovesBy_skipIf c
  rw [PcMovesBy, State.reportRange_pc] at hpc
  refine ⟨_, h, hpc, ?_, fun z hz => (hmem z hz).trans (s.peek_reportRange _ _ z), ?_⟩
  · rw [State.skipIf_events, State.reportRange_events]
  · rw [hframe, State.reportRange_frame]

/-- Settles O52: both instructions are a range report and one skip, on the key named by the low digit. -/
theorem keySkipsFollowKeyPressed : Obligations.KeySkipsFollowKeyPressed := by
  refine ⟨wordsDecodeTo_of_mem (by simp [opcodeTable, opcodeRowsHigh]),
    wordsDecodeTo_of_mem (by simp [opcodeTable, opcodeRowsHigh]), fun x k s hk => ?_⟩
  rw [← lowNibble_eq hk]
  refine ⟨exec_reports_skips rfl, ?_⟩
  obtain ⟨t, ht, hpc, hrest⟩ := exec_reports_skips (i := .sknp x) (s := s) rfl
  refine ⟨t, ht, ?_, hrest⟩
  cases hkey : s.keyPressed (lowNibble (s.reg x)) <;> simpa [hkey] using hpc

theorem exec_ldVxK_none {s : State} (x : Nibble) (h : s.env.poll = none) :
    exec (.ldVxK x) s = .next { s with status := .waiting } := by
  simp only [exec, execLdVxK, h]

theorem exec_ldVxK_some {s : State} (x : Nibble) {k : Nibble} (h : s.env.poll = some k) :
    exec (.ldVxK x) s = .next { (s.setReg x (zextNibble k)).advance with status := .ok } := by
  simp only [exec, execLdVxK, h]

/-- A digit keeps its value when it is widened to a byte. -/
@[simp] theorem zextNibble_toNat (k : Nibble) : (zextNibble k).toNat = k.toNat := BitVec.toNat_setWidth_of_le (by decide)

/-- Settles O53: the two answers of the poll are the two branches of the instruction; a step that waits runs the first, and
its own tick comes after it as after any other. -/
theorem keyWaitNeverBlocks : Obligations.KeyWaitNeverBlocks := by
  refine ⟨wordsDecodeTo_of_mem (by simp [opcodeTable, opcodeRowsHigh]), fun x s => ⟨fun h => ?_, fun k h => ?_,
    fun hs hd h => ?_⟩⟩
  · exact ⟨_, exec_ldVxK_none x h, rfl, fun _ _ => rfl⟩
  · refine ⟨_, exec_ldVxK_some x h, ?_, BitVec.toNat_add _ _, rfl, fun r hr => State.reg_setReg_other hr,
      fun _ _ => rfl, rfl⟩
    exact (congrArg BitVec.toNat (s.reg_setReg_same x _)).trans (zextNibble_toNat k)
  · have hstep := step_of_exec_next hs hd (exec_ldVxK_none x (s := s.readyToRun) h)
    have htimers := timersDown_of_readyToRun (u := { s.readyToRun with status := .waiting }) rfl rfl rfl nofun
    rw [State.endStep_frame] at hstep htimers
    exact ⟨_, hstep, rfl, rfl, rfl, hs, fun _ _ => rfl, fun _ _ => rfl, htimers⟩

theorem exec_ldVxDt (x : Nibble) (s : State) : exec (.ldVxDt x) s = .next (s.setReg x s.dt).advance := rfl

/-- Settles O54: the instruction writes `DT` to a register; in a whole step the driver's ticks are done before it and the
step's own tick comes after it. -/
theorem readDelayTimer : Obligations.ReadDelayTimer := by
  refine ⟨wordsDecodeTo_of_mem (by simp [opcodeTable, opcodeRowsHigh]), fun x s => ⟨?_, fun hs hd => ?_⟩⟩
  · exact ⟨_, exec_ldVxDt x s, s.reg_setReg_same x s.dt, rfl, pcMovesBy_advance rfl, .advance (.setReg _ rfl .refl)⟩
  · refine ⟨_, step_of_exec_next hs hd (exec_ldVxDt x _), ?_, timersDown_of_readyToRun rfl rfl rfl nofun⟩
    rw [State.reg_nextInputs, State.reg_endStep, State.reg_advance, State.reg_setReg_same]
    exact countdown_toNat _ _

theorem exec_ldStVx (x : Nibble) (s : State) :
    exec (.ldStVx x) s = .next ((s.setSound (s.reg x)).emit (.toneRequest (s.reg x))).advance := rfl

theorem State.soundActive_iff (s : State) : s.soundActive = true ↔ s.st.toNat ≠ 0 := by
  rw [State.soundActive, bne_iff_ne, ne_eq, ← BitVec.toNat_inj]
  rfl

/-- Settles O56: the instruction writes `ST`, requests the tone and goes on; the level of the tone is read off `ST`. -/
theorem loadSoundTimerRequestsTone : Obligations.LoadSoundTimerRequestsTone :=
  ⟨wordsDecodeTo_of_mem (by simp [opcodeTable, opcodeRowsHigh]), fun x s =>
    ⟨_, exec_ldStVx x s, rfl, rfl, State.soundActive_iff _, pcMovesBy_advance rfl, fun _ _ => rfl, rfl⟩⟩

end Sys2Proof.Machine
